-- ==== Sys2Proof/Word.lean ====
section
/-! DEFINITION. The bit-vector types of HCIE-32 (spec/00_scope.md R5, R7): every value is an unsigned bit
vector of a stated width, bit 0 the least significant. -/

namespace Sys2Proof

/-- One byte of the buffer or of a point (R7). -/
abbrev Byte := BitVec 8

/-- A 32-bit word: the operand of every primitive (R5 `XLEN`), `E`, the latches, `opA`, `opB`, `ctl`. -/
abbrev Word := BitVec 32

/-- The 64-bit `data` field of a response (R60, R66). -/
abbrev Data := BitVec 64

/-- One 96-bit command packet, `{opB, opA, ctl}` (R5 `PKT`, R60). -/
abbrev Packet := BitVec 96

end Sys2Proof
end

