-- ==== Sys2Proof/Config.lean ====
section
/-! DEFINITION. The implementation parameters of spec/00_scope.md R5. All but one are numbers the spec fixes; the
open one, `BUF_BYTES`, is the field of `Config`, which every State carries (notes/assumptions/4.md). -/

namespace Sys2Proof

/-- The parameter of one instance that R5 leaves to it: `BUF_BYTES`, the capacity of the buffer storage in bytes. -/
structure Config where
  /-- `BUF_BYTES` (R5, decision D7). -/
  bufBytes : Nat
deriving DecidableEq, Repr

/-- The default instance: `BUF_BYTES = 128` (R5, decision D7). -/
def Config.standard : Config := ⟨128⟩

/-- R5: `8 ≤ BUF_BYTES ≤ 65535`. -/
abbrev Config.Valid (c : Config) : Prop := 8 ≤ c.bufBytes ∧ c.bufBytes ≤ 65535

/-- `N_MAX` (R5): the largest dimension count a computation accepts. -/
abbrev nMax : Nat := 32

/-- `W_MAX` (R5): the largest bit-width of one axis. -/
abbrev wMax : Nat := 32

/-- `BUF_MIN` (R5): the smallest buffer size in bytes. -/
abbrev bufMin : Nat := 4

/-- `NREG` (R5): the number of point, width and byte-count registers. -/
abbrev nReg : Nat := 32

/-- `PBYTES` (R5): the bytes one point register holds. -/
abbrev pBytes : Nat := 4

end Sys2Proof
end

