-- ==== Sys2Proof/Syntax.lean ====
section
/-! DEFINITION. The 28 commands of spec/30_encoding.md R64, one constructor per row of spec/opcode_table.json, in the
table's order. Operands stand in the order of R67: the `ctl` fields `a`, `b`, `c` (or the one `imm16`), then `opA`,
then `opB`. A small operand is a number (a count, an index, a shift amount), bounded by WellFormed (a number no packet
can carry: notes/assumptions/11.md); a word operand is a 32-bit vector. -/

namespace Sys2Proof

/-- A command of HCIE-32. A packet's unused word operands are no part of it (R62: they have no effect). -/
inductive Instr where
  /-- `bb.create size`, R86. -/
  | bbCreate (size : Nat)
  /-- `bb.clear`, R87. -/
  | bbClear
  /-- `bb.shl n`, R88. -/
  | bbShl (n : Nat)
  /-- `bb.orw x`, R89. -/
  | bbOrw (x : Word)
  /-- `bb.xorw x`, R90. -/
  | bbXorw (x : Word)
  /-- `bb.setbit pos`, R91. -/
  | bbSetbit (pos : Nat)
  /-- `bb.rd64`, R92. -/
  | bbRd64
  /-- `bb.rdb index`, R93. -/
  | bbRdb (index : Nat)
  /-- `bb.release`, R94. -/
  | bbRelease
  /-- `pu.gray i`, R111. -/
  | puGray (i : Word)
  /-- `pu.igray g`, R112. -/
  | puIgray (g : Word)
  /-- `pu.rotl s, v`, R113. -/
  | puRotl (amount : Nat) (v : Word)
  /-- `pu.rotr s, v`, R114. -/
  | puRotr (amount : Nat) (v : Word)
  /-- `pu.bitw i, v`, R115. -/
  | puBitw (index : Nat) (v : Word)
  /-- `pu.bitb j, i`, R116. -/
  | puBitb (axis : Nat) (index : Nat)
  /-- `pu.popc v`, R117. -/
  | puPopc (v : Word)
  /-- `pu.entry i`, R118. -/
  | puEntry (i : Word)
  /-- `pu.dir n, i`, R119. -/
  | puDir (n : Nat) (i : Word)
  /-- `pu.xmask n, level, d`, R120. -/
  | puXmask (n : Nat) (level : Nat) (d : Nat)
  /-- `pu.gcr n, mu, w`, R121. -/
  | puGcr (n : Nat) (mu : Word) (w : Word)
  /-- `hx.setn n`, R131. -/
  | hxSetn (n : Nat)
  /-- `hx.setw j, width`, R132. -/
  | hxSetw (axis : Nat) (width : Nat)
  /-- `hx.ldp j, nbytes, bytes`, R133. -/
  | hxLdp (axis : Nat) (nbytes : Nat) (bytes : Word)
  /-- `hx.init`, R136. -/
  | hxInit
  /-- `hx.step`, R146. -/
  | hxStep
  /-- `hx.run`, R147. -/
  | hxRun
  /-- `hx.abort`, R148. -/
  | hxAbort
  /-- `cs.rd address`, R160. -/
  | csRd (address : Nat)
deriving DecidableEq, Repr

end Sys2Proof
end

