-- ==== Sys2Proof/WellFormed.lean ====
section
/-! DEFINITION. Which terms of Instr a packet can carry: R63 of spec/30_encoding.md gives every small field its range
(`a`, `b`, `c` in 0..255, `imm16` in 0..65535). A value outside the range its COMMAND allows is still well formed:
"A field whose value is outside the range its command allows is not an encoding error" (R63); the command answers it
with a status. -/

namespace Sys2Proof

/-- R63: the range of the 8-bit fields `a`, `b`, `c`. -/
abbrev fitsByte (v : Nat) : Bool := decide (v < 256)

/-- R63: the range of `imm16`. -/
abbrev fitsImm (v : Nat) : Bool := decide (v < 65536)

/-- A command whose operands fit the fields its format gives them (R62, R63, R64). -/
def Instr.wellFormed : Instr → Bool
  | .bbCreate size => fitsImm size
  | .bbClear => true
  | .bbShl n => fitsByte n
  | .bbOrw _ => true
  | .bbXorw _ => true
  | .bbSetbit pos => fitsImm pos
  | .bbRd64 => true
  | .bbRdb index => fitsImm index
  | .bbRelease => true
  | .puGray _ => true
  | .puIgray _ => true
  | .puRotl amount _ => fitsByte amount
  | .puRotr amount _ => fitsByte amount
  | .puBitw index _ => fitsByte index
  | .puBitb axis index => fitsByte axis && fitsByte index
  | .puPopc _ => true
  | .puEntry _ => true
  | .puDir n _ => fitsByte n
  | .puXmask n level d => fitsByte n && (fitsByte level && fitsByte d)
  | .puGcr n _ _ => fitsByte n
  | .hxSetn n => fitsByte n
  | .hxSetw axis width => fitsByte axis && fitsByte width
  | .hxLdp axis nbytes _ => fitsByte axis && fitsByte nbytes
  | .hxInit => true
  | .hxStep => true
  | .hxRun => true
  | .hxAbort => true
  | .csRd address => fitsImm address

end Sys2Proof
end

