-- ==== Sys2Proof/Decode.lean ====
section
/-! DEFINITION. The packet format, the opcode table, the decoder and the encoder (spec/30_encoding.md R60 to R66, R69).
Decoding is total: every one of the 2^96 packets selects one command or is illegal (R65). -/

namespace Sys2Proof

/-- R60: `cmd = {opB, opA, ctl}`; a 32-bit transport sends the three words in the order `ctl`, `opA`, `opB`. -/
def Packet.ofWords (ctl opA opB : Word) : Packet := opB ++ opA ++ ctl

/-- R61: the control word, `cmd[31:0]`. -/
def Packet.ctl (p : Packet) : Word := p.extractLsb' 0 32

/-- R61: the first word operand, `cmd[63:32]`. -/
def Packet.opA (p : Packet) : Word := p.extractLsb' 32 32

/-- R61: the second word operand, `cmd[95:64]`. -/
def Packet.opB (p : Packet) : Word := p.extractLsb' 64 32

/-- R61: `opcode` is `ctl[7:0]`. -/
def ctlOpcode (ctl : Word) : Nat := (ctl.extractLsb' 0 8).toNat

/-- R61: `a` is `ctl[15:8]`. -/
def ctlA (ctl : Word) : Nat := (ctl.extractLsb' 8 8).toNat

/-- R61: `b` is `ctl[23:16]`. -/
def ctlB (ctl : Word) : Nat := (ctl.extractLsb' 16 8).toNat

/-- R61: `c` is `ctl[31:24]`. -/
def ctlC (ctl : Word) : Nat := (ctl.extractLsb' 24 8).toNat

/-- R61: `imm16` is `ctl[31:16]`, that is `{c, b}`. -/
def ctlImm (ctl : Word) : Nat := (ctl.extractLsb' 16 16).toNat

/-- The five formats of R62. -/
inductive Format where
  | Z | A | AB | ABC | I
deriving DecidableEq, Repr

/-- R62: the `ctl` bits a format reserves, the opcode's not among them. -/
def Format.reserved : Format → Word
  | .Z => 0xFFFFFF00#32
  | .A => 0xFFFF0000#32
  | .AB => 0xFF000000#32
  | .ABC => 0x00000000#32
  | .I => 0x0000FF00#32

/-- R62: the `mask` of the opcode table, the opcode and the reserved bits. -/
def Format.mask (f : Format) : Word := f.reserved ||| 0x000000FF#32

/-- The operands a packet carries, each field read as R61 and R63 say. -/
structure Fields where
  a : Nat
  b : Nat
  c : Nat
  imm : Nat
  opA : Word
  opB : Word
deriving DecidableEq, Repr

/-- R61: all fields of a packet. -/
def Packet.fields (p : Packet) : Fields :=
  { a := ctlA p.ctl, b := ctlB p.ctl, c := ctlC p.ctl, imm := ctlImm p.ctl, opA := p.opA, opB := p.opB }

/-- One row of the opcode map of R64. -/
structure OpcodeRow where
  /-- The mnemonic. -/
  mnemonic : String
  /-- The opcode, `ctl[7:0]`. -/
  opcode : Nat
  /-- The format, which says the `ctl` fields used. -/
  format : Format
  /-- Whether the command reads `opA`. -/
  readsA : Bool
  /-- Whether the command reads `opB`. -/
  readsB : Bool
  /-- The command those operands make. -/
  build : Fields → Instr

/-- The bit-buffer unit's rows of R64. -/
def bbRows : List OpcodeRow := [
  ⟨"bb.create", 0x10, .I, false, false, fun f => .bbCreate f.imm⟩,
  ⟨"bb.clear", 0x11, .Z, false, false, fun _ => .bbClear⟩,
  ⟨"bb.shl", 0x12, .A, false, false, fun f => .bbShl f.a⟩,
  ⟨"bb.orw", 0x13, .Z, true, false, fun f => .bbOrw f.opA⟩,
  ⟨"bb.xorw", 0x14, .Z, true, false, fun f => .bbXorw f.opA⟩,
  ⟨"bb.setbit", 0x15, .I, false, false, fun f => .bbSetbit f.imm⟩,
  ⟨"bb.rd64", 0x16, .Z, false, false, fun _ => .bbRd64⟩,
  ⟨"bb.rdb", 0x17, .I, false, false, fun f => .bbRdb f.imm⟩,
  ⟨"bb.release", 0x18, .Z, false, false, fun _ => .bbRelease⟩]

/-- The primitive unit's rows of R64. -/
def puRows : List OpcodeRow := [
  ⟨"pu.gray", 0x20, .Z, true, false, fun f => .puGray f.opA⟩,
  ⟨"pu.igray", 0x21, .Z, true, false, fun f => .puIgray f.opA⟩,
  ⟨"pu.rotl", 0x22, .A, true, false, fun f => .puRotl f.a f.opA⟩,
  ⟨"pu.rotr", 0x23, .A, true, false, fun f => .puRotr f.a f.opA⟩,
  ⟨"pu.bitw", 0x24, .A, true, false, fun f => .puBitw f.a f.opA⟩,
  ⟨"pu.bitb", 0x25, .AB, false, false, fun f => .puBitb f.a f.b⟩,
  ⟨"pu.popc", 0x26, .Z, true, false, fun f => .puPopc f.opA⟩,
  ⟨"pu.entry", 0x27, .Z, true, false, fun f => .puEntry f.opA⟩,
  ⟨"pu.dir", 0x28, .A, true, false, fun f => .puDir f.a f.opA⟩,
  ⟨"pu.xmask", 0x29, .ABC, false, false, fun f => .puXmask f.a f.b f.c⟩,
  ⟨"pu.gcr", 0x2A, .A, true, true, fun f => .puGcr f.a f.opA f.opB⟩]

/-- The engine's and the register read port's rows of R64. -/
def hxRows : List OpcodeRow := [
  ⟨"hx.setn", 0x30, .A, false, false, fun f => .hxSetn f.a⟩,
  ⟨"hx.setw", 0x31, .AB, false, false, fun f => .hxSetw f.a f.b⟩,
  ⟨"hx.ldp", 0x32, .AB, true, false, fun f => .hxLdp f.a f.b f.opA⟩,
  ⟨"hx.init", 0x33, .Z, false, false, fun _ => .hxInit⟩,
  ⟨"hx.step", 0x34, .Z, false, false, fun _ => .hxStep⟩,
  ⟨"hx.run", 0x35, .Z, false, false, fun _ => .hxRun⟩,
  ⟨"hx.abort", 0x36, .Z, false, false, fun _ => .hxAbort⟩,
  ⟨"cs.rd", 0x40, .I, false, false, fun f => .csRd f.imm⟩]

/-- The opcode map of R64, all 28 rows. -/
def opcodeTable : List OpcodeRow := bbRows ++ puRows ++ hxRows

/-- Why a packet is illegal (R65). The machine answers both with `ILLEGAL` (R177). -/
inductive Illegal where
  /-- The opcode is not one of the 28. -/
  | undefinedOpcode
  /-- A field the format reserves is not zero. -/
  | reservedField
deriving DecidableEq, Repr

/-- R64, R65: the command a packet encodes, or why it is illegal. -/
def decode (p : Packet) : Except Illegal Instr :=
  match opcodeTable.find? (fun r => r.opcode == ctlOpcode p.ctl) with
  | none => .error .undefinedOpcode
  | some r => if p.ctl &&& r.format.reserved = 0 then .ok (r.build p.fields) else .error .reservedField

/-- R61: a control word of the fields `c`, `b`, `a` and the opcode. -/
def ctlOf (op a b c : Nat) : Word :=
  BitVec.ofNat 8 c ++ BitVec.ofNat 8 b ++ BitVec.ofNat 8 a ++ BitVec.ofNat 8 op

/-- R61: a control word of format I: `imm16`, the reserved `a` and the opcode. -/
def ctlOfImm (op imm : Nat) : Word := BitVec.ofNat 16 imm ++ 0#8 ++ BitVec.ofNat 8 op

/-- R64, R67: the packet of a command, with every unused `ctl` field and word operand zero. -/
def encode : Instr → Packet
  | .bbCreate size => Packet.ofWords (ctlOfImm 0x10 size) 0 0
  | .bbClear => Packet.ofWords (ctlOf 0x11 0 0 0) 0 0
  | .bbShl n => Packet.ofWords (ctlOf 0x12 n 0 0) 0 0
  | .bbOrw x => Packet.ofWords (ctlOf 0x13 0 0 0) x 0
  | .bbXorw x => Packet.ofWords (ctlOf 0x14 0 0 0) x 0
  | .bbSetbit pos => Packet.ofWords (ctlOfImm 0x15 pos) 0 0
  | .bbRd64 => Packet.ofWords (ctlOf 0x16 0 0 0) 0 0
  | .bbRdb index => Packet.ofWords (ctlOfImm 0x17 index) 0 0
  | .bbRelease => Packet.ofWords (ctlOf 0x18 0 0 0) 0 0
  | .puGray i => Packet.ofWords (ctlOf 0x20 0 0 0) i 0
  | .puIgray g => Packet.ofWords (ctlOf 0x21 0 0 0) g 0
  | .puRotl amount v => Packet.ofWords (ctlOf 0x22 amount 0 0) v 0
  | .puRotr amount v => Packet.ofWords (ctlOf 0x23 amount 0 0) v 0
  | .puBitw index v => Packet.ofWords (ctlOf 0x24 index 0 0) v 0
  | .puBitb axis index => Packet.ofWords (ctlOf 0x25 axis index 0) 0 0
  | .puPopc v => Packet.ofWords (ctlOf 0x26 0 0 0) v 0
  | .puEntry i => Packet.ofWords (ctlOf 0x27 0 0 0) i 0
  | .puDir n i => Packet.ofWords (ctlOf 0x28 n 0 0) i 0
  | .puXmask n level d => Packet.ofWords (ctlOf 0x29 n level d) 0 0
  | .puGcr n mu w => Packet.ofWords (ctlOf 0x2A n 0 0) mu w
  | .hxSetn n => Packet.ofWords (ctlOf 0x30 n 0 0) 0 0
  | .hxSetw axis width => Packet.ofWords (ctlOf 0x31 axis width 0) 0 0
  | .hxLdp axis nbytes bytes => Packet.ofWords (ctlOf 0x32 axis nbytes 0) bytes 0
  | .hxInit => Packet.ofWords (ctlOf 0x33 0 0 0) 0 0
  | .hxStep => Packet.ofWords (ctlOf 0x34 0 0 0) 0 0
  | .hxRun => Packet.ofWords (ctlOf 0x35 0 0 0) 0 0
  | .hxAbort => Packet.ofWords (ctlOf 0x36 0 0 0) 0 0
  | .csRd address => Packet.ofWords (ctlOfImm 0x40 address) 0 0

/-- The packet whose low `nbits` bits are `w`, numbered as spec/opcode_table.json numbers them (bit 0 of `ctl` is bit 0),
and whose other bits are zero (notes/assumptions/12.md). -/
def packetOfTableWord (nbits w : Nat) : Packet := BitVec.ofNat 96 (w % 2 ^ nbits)

/-- The command the decoder reads from a table word; none where the packet is illegal. -/
def decodeTableWord (nbits w : Nat) : Option Instr :=
  match decode (packetOfTableWord nbits w) with
  | .ok i => some i
  | .error _ => none

end Sys2Proof
end

