-- ==== Sys2Proof/Machine/State.lean ====
section
/-! DEFINITION. The state of one HCIE-32 instance: all of spec/10_state.md R10, with the reset values of R28, and three
fields of the model's own (the instance's parameter, the host's side of the command channel, the responses given);
and the reasons a step could stop, of which this hardware has none. -/

namespace Sys2Proof.Machine

/-- The eight status codes of a response (spec/60_exceptions.md R170). -/
inductive Status where
  | ok
  | invalidArgument
  | allocationFailure
  | noBuffer
  | range
  | busy
  | sequence
  | illegal
deriving DecidableEq, Repr

/-- The response to one command: `{status, data}` (spec/30_encoding.md R66). -/
structure Response where
  status : Status
  data : Data
deriving DecidableEq, Repr

/-- What the host does to the block between two commands: offer a packet (R60), or reset it (R190, R191). -/
inductive HostEvent where
  | packet (p : Packet)
  | rst
deriving DecidableEq, Repr

/-- The buffer storage as the canonical list of the bytes that do not read as an unlisted one
(notes/assumptions/5.md). -/
abbrev Memory := List Host.Cell

/-- The whole state of one instance. -/
structure State where
  /-- The instance's parameter `BUF_BYTES` (R5); no step writes it. The model's own field (notes/assumptions/4.md). -/
  cfg : Config
  /-- `B`, the buffer storage (R11). -/
  B : Memory
  /-- `S`, the size of the buffer in bytes (R12). -/
  S : BitVec 16
  /-- `BV`, a buffer exists (R13). -/
  BV : Bool
  /-- `N`, the dimension count (R16). -/
  N : BitVec 8
  /-- `W[0..31]`, the widths (R17). -/
  W : Vector (BitVec 8) 32
  /-- `P[0..31]`, the points (R18). -/
  P : Vector Word 32
  /-- `PLEN[0..31]`, the bytes supplied for each point (R19). -/
  PLEN : Vector (BitVec 3) 32
  /-- `E`, the entry-point accumulator (R20). -/
  E : Word
  /-- `D`, the direction accumulator (R21). -/
  D : BitVec 5
  /-- `LVL`, the level the next `hx.step` executes (R22). -/
  LVL : BitVec 5
  /-- `ACT`, a computation is in progress (R23). -/
  ACT : Bool
  /-- `MU`, the mask of the last level (R24). -/
  MU : Word
  /-- `L`, the cross-section of the last level (R24). -/
  L : Word
  /-- `T`, the transformed word of the last level (R24). -/
  T : Word
  /-- `WV`, the inverse Gray code of the last level (R24). -/
  WV : Word
  /-- `R`, the rank of the last level (R24). -/
  R : Word
  /-- What the host still offers, oldest first (R60). The model's own field (notes/assumptions/1.md). -/
  inputs : List HostEvent
  /-- The responses given, oldest first (R60). The model's own field (notes/assumptions/3.md). -/
  rsps : List Response
deriving DecidableEq, Repr

/-- The hardware stops with no fault: an error is reported in the response and changes nothing (R179), no case is a
fault or a stuck state (spec/93_implementation_defined.md). So the type is empty, which is safe: nothing can be
proved by way of a fault (notes/assumptions/8.md). -/
inductive Fault where
deriving DecidableEq, Repr

/-- Why the MODEL has no meaning for an instruction. -/
inductive Refusal where
  /-- Raised only by an arm of `exec` whose instruction has no meaning yet; no arm raises it, which is safe. -/
  | notModelled (mnemonic : String)
deriving DecidableEq, Repr

/-- What one command of this machine answers. -/
abbrev Result := Host.Outcome State Fault Refusal

/-- R28, R190: an instance right after reset, every piece of architectural state zero; with nothing offered and nothing
answered. -/
def State.resetOf (c : Config) : State :=
  { cfg := c, B := [], S := 0, BV := false, N := 0, W := Vector.replicate 32 0, P := Vector.replicate 32 0,
    PLEN := Vector.replicate 32 0, E := 0, D := 0, LVL := 0, ACT := false, MU := 0, L := 0, T := 0, WV := 0, R := 0,
    inputs := [], rsps := [] }

/-- R28: the default instance (`BUF_BYTES = 128`) right after reset. -/
def State.reset : State := State.resetOf Config.standard

end Sys2Proof.Machine
end

