-- ==== Sys2Proof/Machine/Ops.lean ====
section
/-! DEFINITION. The named operations over the buffer storage, the register files and the command channel: byte access,
the unit operations of spec/40_bitbuffer.md R80 to R85, register reads and writes, answering a command, refusing one
(spec/60_exceptions.md R178, R179), and reset (spec/70_reset_and_hazards.md R190). -/

namespace Sys2Proof.Machine

/-- R7: `ceil8(x) = (x + 7) div 8`. -/
def ceil8 (x : Nat) : Nat := (x + 7) / 8

/-- R42: byte lane `t` of a word, `x[8t+7:8t]`. -/
def byteLane (x : Word) (t : Nat) : Byte := x.extractLsb' (8 * t) 8

/-! ## One byte of the storage -/

/-- R28, R14: what a byte that is not listed reads as. -/
def Memory.unlisted : Byte := 0x00#8

/-- `B[k]` (R7). -/
def Memory.read : Memory → Nat → Byte
  | [], _ => Memory.unlisted
  | (a, b) :: rest, k => if a = k then b else Memory.read rest k

/-- The storage without byte `k` listed. -/
def Memory.erase (m : Memory) (k : Nat) : Memory := m.filter (fun c => c.1 != k)

/-- A byte put into its place in the rising order of addresses. -/
def Memory.insert : Memory → Nat → Byte → Memory
  | [], k, v => [(k, v)]
  | (a, b) :: rest, k, v => if k < a then (k, v) :: (a, b) :: rest else (a, b) :: Memory.insert rest k v

/-- `B[k] <- v` (R7): the form stays canonical, so writing the value an unlisted byte reads as unlists the byte. -/
def Memory.write (m : Memory) (k : Nat) (v : Byte) : Memory :=
  if v = Memory.unlisted then m.erase k else (m.erase k).insert k v

/-- The canonical form: addresses strictly rising, no entry equal to what an unlisted byte reads as. -/
abbrev Memory.wf (m : Memory) : Prop :=
  m.Pairwise (fun x y => x.1 < y.1) ∧ ∀ c ∈ m, c.2 ≠ Memory.unlisted

/-- R7: `MemRead(addr, n)`, the n-byte little-endian value from `addr` up (R41). -/
def Memory.readN (m : Memory) (addr : Nat) : Nat → Nat
  | 0 => 0
  | n + 1 => m.readN addr n + (m.read (addr + n)).toNat * 2 ^ (8 * n)

/-! ## The bit-buffer unit's operations (R80 to R85), on the storage -/

/-- R80: the loop of `buf_shl(n)` over `count` bytes from byte `k` up, `carry` coming in from the byte below. -/
def Memory.shlFrom (n : Nat) : Nat → Nat → Byte → Memory → Memory
  | 0, _, _, m => m
  | count + 1, k, carry, m =>
    Memory.shlFrom n count (k + 1) (m.read k >>> (8 - n)) (m.write k ((m.read k <<< n) ||| carry))

/-- R80: `buf_shl(n)` on a buffer of `size` bytes, for n below 8. -/
def Memory.shl (m : Memory) (size n : Nat) : Memory := Memory.shlFrom n size 0 0 m

/-- `count` applications of `buf_shl(7)` (R82). -/
def Memory.shlSevens (size : Nat) : Nat → Memory → Memory
  | 0, m => m
  | count + 1, m => Memory.shlSevens size count (m.shl size 7)

/-- R82: `buf_shl_wide(k)`, `k div 7` shifts by 7 and one by `k mod 7`. -/
def Memory.shlWide (m : Memory) (size k : Nat) : Memory := (Memory.shlSevens size (k / 7) m).shl size (k % 7)

/-- A slice of four bytes from `base` up, each combined with its lane of `x` (R42). -/
def Memory.combine (f : Byte → Byte → Byte) (m : Memory) (base : Nat) (x : Word) : Memory :=
  [0, 1, 2, 3].foldl (fun m t => m.write (base + t) (f (m.read (base + t)) (byteLane x t))) m

/-- R83: `buf_or32(x)` on a buffer of `size` bytes, into bytes `size - 4 .. size - 1`. -/
def Memory.or32 (m : Memory) (size : Nat) (x : Word) : Memory := m.combine (· ||| ·) (size - 4) x

/-- R84: `buf_xor32(x)`, into bytes 0 to 3. -/
def Memory.xor32 (m : Memory) (x : Word) : Memory := m.combine (· ^^^ ·) 0 x

/-- R87: bytes `0 .. size - 1` set to zero. -/
def Memory.clear : Memory → Nat → Memory
  | m, 0 => m
  | m, size + 1 => (m.write size 0x00#8).clear size

/-- R91: bit `pos mod 8` of byte `pos div 8` set to 1. -/
def Memory.setBit (m : Memory) (pos : Nat) : Memory :=
  m.write (pos / 8) (m.read (pos / 8) ||| (1#8 <<< (pos % 8)))

/-! ## The same on the state -/

/-- `B[k]` of a state. -/
def State.byte (s : State) (k : Nat) : Byte := s.B.read k

/-- R15: the buffer value `V`, all `S` bytes as one integer. -/
def State.value (s : State) : Nat := s.B.readN 0 s.S.toNat

/-- R80 on the state. -/
def State.bufShl (s : State) (n : Nat) : State := { s with B := s.B.shl s.S.toNat n }

/-- R82 on the state. -/
def State.bufShlWide (s : State) (k : Nat) : State := { s with B := s.B.shlWide s.S.toNat k }

/-- R83 on the state. -/
def State.bufOr32 (s : State) (x : Word) : State := { s with B := s.B.or32 s.S.toNat x }

/-- R84 on the state. -/
def State.bufXor32 (s : State) (x : Word) : State := { s with B := s.B.xor32 x }

/-- R87's operation. -/
def State.bufClear (s : State) : State := { s with B := s.B.clear s.S.toNat }

/-- R91's operation. -/
def State.bufSetBit (s : State) (pos : Nat) : State := { s with B := s.B.setBit pos }

/-- R85: `buf_alloc(size)`: every byte of the storage zero, a buffer of that size. -/
def State.bufAlloc (s : State) (size : Nat) : State := { s with B := [], S := BitVec.ofNat 16 size, BV := true }

/-- R94's operation: every byte of the storage zero, no buffer. -/
def State.bufRelease (s : State) : State := { s with B := [], S := 0, BV := false }

/-! ## The register files (R17, R18, R19) -/

/-- Register `W[j]`. -/
def State.width (s : State) (j : Nat) : BitVec 8 := s.W[j]?.getD 0

/-- Register `P[j]`. -/
def State.point (s : State) (j : Nat) : Word := s.P[j]?.getD 0

/-- Register `PLEN[j]`. -/
def State.plen (s : State) (j : Nat) : BitVec 3 := s.PLEN[j]?.getD 0

/-- `W[j] <- v`. -/
def State.setWidth (s : State) (j : Nat) (v : BitVec 8) : State := { s with W := s.W.setIfInBounds j v }

/-- `P[j] <- v`. -/
def State.setPoint (s : State) (j : Nat) (v : Word) : State := { s with P := s.P.setIfInBounds j v }

/-- `PLEN[j] <- v`. -/
def State.setPlen (s : State) (j : Nat) (v : BitVec 3) : State := { s with PLEN := s.PLEN.setIfInBounds j v }

/-! ## The command channel -/

/-- What the host offers next (R60). -/
def State.nextInput (s : State) : Option HostEvent := s.inputs.head?

/-- The command being executed ends (R49, R60): its packet leaves the channel and its one response is given. -/
def State.answer (s : State) (status : Status) (data : Data) : State :=
  { s with inputs := s.inputs.tail, rsps := s.rsps ++ [⟨status, data⟩] }

/-- R7: `respond(d)`: the command ends with status OK. -/
def State.respond (s : State) (data : Data) : State := s.answer .ok data

/-- R7, R179: `raise Status(code)`: the command ends, data is 0, and no state of R10 changes. This is what takes the
place of taking an exception; there is no entry and nothing to return from (R180, R181). -/
def State.raise (s : State) (status : Status) : State := s.answer status 0

/-- R178: of the checks of a command, in their order, the first that fails (its condition is true) decides. -/
def firstFailure : List (Bool × Status) → Option Status
  | [] => none
  | (true, status) :: _ => some status
  | (false, _) :: rest => firstFailure rest

/-- R8, R69, R178: a command with these checks: the first failing one is raised; if none fails the command's own next
state is taken. -/
def complete (s : State) (checks : List (Bool × Status)) (done : State) : Result :=
  match firstFailure checks with
  | some status => .next (s.raise status)
  | none => .next done

/-- R190: every piece of architectural state takes its reset value. The reset leaves the channel; what the host offers
after it, the responses already given and the instance's parameter stay (notes/assumptions/6.md, 3.md). -/
def State.takeReset (s : State) : State :=
  { State.resetOf s.cfg with inputs := s.inputs.tail, rsps := s.rsps }

/-! ## The wire forms -/

/-- R170: the 8-bit code of a status. -/
def Status.code : Status → BitVec 8
  | .ok => 0x00#8
  | .invalidArgument => 0x01#8
  | .allocationFailure => 0x02#8
  | .noBuffer => 0x03#8
  | .range => 0x04#8
  | .busy => 0x05#8
  | .sequence => 0x06#8
  | .illegal => 0x07#8

/-- R60: the 72 bits of a response, `rsp = {status[7:0], data[63:0]}`. -/
def Response.bits (r : Response) : BitVec 72 := r.status.code ++ r.data

end Sys2Proof.Machine
end

