-- ==== Sys2Proof/Machine/Flags.lean ====
section
/-! DEFINITION. The two status flags `BV` and `ACT` (spec/10_state.md R25), the STATUS word made of them, and the three
checks of spec/60_exceptions.md that read them (R173, R175, R176). No command result sets a condition code (R25). -/

namespace Sys2Proof.Machine

/-- R25: `STATUS = {62 zero bits, ACT, BV}`. -/
def State.statusWord (s : State) : Data := 0#62 ++ BitVec.ofBool s.ACT ++ BitVec.ofBool s.BV

/-- R175: the check of the commands that would disturb a stepped computation. -/
def State.busy (s : State) : Bool × Status := (s.ACT, .busy)

/-- R173: the check of the buffer commands other than bb.create. -/
def State.noBuffer (s : State) : Bool × Status := (!s.BV, .noBuffer)

/-- R176: the check of hx.step. -/
def State.noComputation (s : State) : Bool × Status := (!s.ACT, .sequence)

end Sys2Proof.Machine
end

