-- ==== Sys2Proof/Machine/Operands.lean ====
section
/-! DEFINITION. Operand forms: zero extension into the response (spec/30_encoding.md R63, R66), the bytes of a point
(spec/10_state.md R18), the bytes hx.ldp keeps (spec/42_engine.md R133), and the operand checks of
spec/60_exceptions.md R171, R172 and R174. -/

namespace Sys2Proof.Machine

/-- R66: a value zero-extended to the 64 data bits. -/
def zext64 {w : Nat} (v : BitVec w) : Data := v.setWidth 64

/-- A small exact integer as the 64 data bits (R123). -/
def data64 (v : Nat) : Data := BitVec.ofNat 64 v

/-- R18: the byte sequence of a point register, byte `t` in bits `8t+7..8t`. -/
def pointBytes (v : Word) : List Byte := [byteLane v 0, byteLane v 1, byteLane v 2, byteLane v 3]

/-- R133: the supplied bytes of a point, `opA & (2^(8 * nbytes) - 1)`. -/
def suppliedBytes (bytes : Word) (nbytes : Nat) : Word := bytes &&& BitVec.ofNat 32 (2 ^ (8 * nbytes) - 1)

/-- R86: `max(size, 4)`. -/
def createSize (size : Nat) : Nat := max size bufMin

/-- R171: a condition that is answered INVALID_ARGUMENT. -/
def invalidIf (bad : Bool) : Bool × Status := (bad, .invalidArgument)

/-- R174: a condition that is answered RANGE. -/
def rangeIf (bad : Bool) : Bool × Status := (bad, .range)

/-- R172: a buffer of `size` bytes exceeds BUF_BYTES. -/
def State.tooBig (s : State) (size : Nat) : Bool × Status := (decide (s.cfg.bufBytes < size), .allocationFailure)

end Sys2Proof.Machine
end

