-- ==== Sys2Proof/Machine/BitBuffer.lean ====
section
/-! DEFINITION. The bit-buffer unit's commands (spec/40_bitbuffer.md R86 to R94). Each gives its checks in the order of
spec/60_exceptions.md R178, then its operation and response. -/

namespace Sys2Proof.Machine

/-- R86. -/
def execBbCreate (size : Nat) (s : State) : Result :=
  complete s [s.busy, s.tooBig (createSize size)]
    ((s.bufAlloc (createSize size)).respond (data64 (createSize size)))

/-- R87. -/
def execBbClear (s : State) : Result := complete s [s.busy, s.noBuffer] (s.bufClear.respond 0)

/-- R88. -/
def execBbShl (n : Nat) (s : State) : Result :=
  complete s [s.busy, s.noBuffer, invalidIf (decide (8 ≤ n))] ((s.bufShl n).respond 0)

/-- R89. -/
def execBbOrw (x : Word) (s : State) : Result := complete s [s.busy, s.noBuffer] ((s.bufOr32 x).respond 0)

/-- R90. -/
def execBbXorw (x : Word) (s : State) : Result := complete s [s.busy, s.noBuffer] ((s.bufXor32 x).respond 0)

/-- R91. -/
def execBbSetbit (pos : Nat) (s : State) : Result :=
  complete s [s.busy, s.noBuffer, rangeIf (decide (8 * s.S.toNat ≤ pos))] ((s.bufSetBit pos).respond 0)

/-- R92: not subject to BUSY; the response is `MemRead(0, 8)` (R43). -/
def execBbRd64 (s : State) : Result :=
  complete s [s.noBuffer, rangeIf (decide (s.S.toNat < 8))] (s.respond (data64 (s.B.readN 0 8)))

/-- R93: not subject to BUSY. -/
def execBbRdb (index : Nat) (s : State) : Result :=
  complete s [s.noBuffer, rangeIf (decide (s.S.toNat ≤ index))] (s.respond (zext64 (s.byte index)))

/-- R94. -/
def execBbRelease (s : State) : Result := complete s [s.busy, s.noBuffer] (s.bufRelease.respond 0)

end Sys2Proof.Machine
end

