-- ==== Sys2Proof/Machine/Primitives.lean ====
section
/-! DEFINITION. The eleven functions of the primitive unit (spec/41_primitives.md R100 to R110): pure functions on 32-bit
words (R124). All shifts are logical; the rotations are over 32 bits, whatever the dimension count (R102). -/

namespace Sys2Proof.Machine

/-- R100. -/
def gray (i : Word) : Word := i ^^^ (i >>> 1)

/-- R101: the shifts are of the original word. -/
def igray (g : Word) : Word := (List.range' 1 31).foldl (fun acc shift => acc ^^^ (g >>> shift)) g

/-- R102, for an amount below 32. -/
def rotl (v : Word) (amount : Nat) : Word :=
  if amount = 0 then v else (v <<< amount) ||| (v >>> (32 - amount))

/-- R103, for an amount below 32. -/
def rotr (v : Word) (amount : Nat) : Word :=
  if amount = 0 then v else (v >>> amount) ||| (v <<< (32 - amount))

/-- R104: bit `i` of a word. -/
def bitAtWord (v : Word) (i : Nat) : Bool := v.getLsbD i

/-- R105: bit `i` of a byte sequence, byte `i div 8`, bit `i mod 8`. -/
def bitAtBytes (bytes : List Byte) (i : Nat) : Bool := (bytes.getD (i / 8) 0).getLsbD (i % 8)

/-- R106: the number of set bits. -/
def popcount (v : Word) : Nat := ((List.range 32).map (fun k => (v.getLsbD k).toNat)).sum

/-- R107: the subtraction wraps modulo 2^32, bit 0 is cleared, the shift in `gray` is logical (90_conflicts.md C5). -/
def entry (i : Word) : Word := if i = 0 then 0 else gray ((i - 1#32) &&& 0xFFFFFFFE#32)

/-- R108, for n from 1 to 32. -/
def direction (i : Word) (n : Nat) : Nat :=
  if i = 0 then 0 else if i.getLsbD 0 = false then popcount (i - 1#32) % n else popcount i % n

/-- R109: the loop from axis `j - 1` down, `mask` the bits gathered so far. -/
def maskFrom (n : Nat) (W : Vector (BitVec 8) 32) (level d : Nat) : Nat → Word → Word
  | 0, mask => mask
  | j + 1, mask =>
    maskFrom n W level d j
      ((mask <<< 1) ||| (BitVec.ofBool (decide (level < (W[(j + d) % n]?.getD 0).toNat))).setWidth 32)

/-- R109: `extract_mask(n, W, level, d)`. -/
def extractMask (n : Nat) (W : Vector (BitVec 8) 32) (level d : Nat) : Word := maskFrom n W level d n 0

/-- R110: the loop from bit `j - 1` down, `r` the bits gathered so far. -/
def gcrFrom (mu w : Word) : Nat → Word → Word
  | 0, r => r
  | j + 1, r =>
    gcrFrom mu w j (if mu.getLsbD j then (r <<< 1) ||| (BitVec.ofBool (w.getLsbD j)).setWidth 32 else r)

/-- R110: `gcr(n, mu, w)`. -/
def gcr (n : Nat) (mu w : Word) : Word := gcrFrom mu w n 0

end Sys2Proof.Machine
end

