-- ==== Sys2Proof/Machine/Engine.lean ====
section
/-! DEFINITION. The index engine's shared operations (spec/42_engine.md): the quantities of a configuration (R134),
validation (R135), the start of a computation (R136), one level (R137 to R144) and the level loop (R145). -/

namespace Sys2Proof.Machine

/-! ## The configuration (R134, R135) -/

/-- R134: `M = W[0] + ... + W[N-1]`. -/
def State.totalWidth (s : State) : Nat := ((List.range s.N.toNat).map (fun j => (s.width j).toNat)).sum

/-- R134: `m = max(W[0], ..., W[N-1])`. -/
def State.maxWidth (s : State) : Nat := ((List.range s.N.toNat).map (fun j => (s.width j).toNat)).foldl max 0

/-- R134: `S_need = max(4, ceil8(M))`. -/
def State.sizeNeeded (s : State) : Nat := max bufMin (ceil8 s.totalWidth)

/-- R135: axis `j` has a width outside 1 to 32, or a point shorter than its width needs. -/
def State.axisInvalid (s : State) (j : Nat) : Bool :=
  decide ((s.width j).toNat < 1 ∨ wMax < (s.width j).toNat ∨ (s.plen j).toNat < ceil8 (s.width j).toNat)

/-- R135: `validate()`, as the checks it makes, in its order. -/
def State.validate (s : State) : List (Bool × Status) :=
  [invalidIf (decide (s.N.toNat < 1 ∨ nMax < s.N.toNat)),
   invalidIf ((List.range s.N.toNat).any s.axisInvalid),
   s.tooBig s.sizeNeeded]

/-! ## One level (R137) -/

/-- R139: the loop that gathers bit `i` of axes `j - 1` down to 0. -/
def crossFrom (s : State) (i : Nat) : Nat → Word → Word
  | 0, l => l
  | j + 1, l =>
    crossFrom s i j (l ||| ((BitVec.ofBool (bitAtBytes (pointBytes (s.point j)) i)).setWidth 32 <<< j))

/-- R138, stage 1: the mask `mu`. -/
def State.levelMask (s : State) (i : Nat) : Word := extractMask s.N.toNat s.W i s.D.toNat

/-- R139, stage 2: the cross-section `l`, of every axis, masked or not. -/
def State.levelCross (s : State) (i : Nat) : Word := crossFrom s i s.N.toNat 0

/-- R140, stage 3: `t = rotr(l ^ E, D)`. -/
def State.levelTransform (s : State) (i : Nat) : Word := rotr (s.levelCross i ^^^ s.E) s.D.toNat

/-- R141, stage 4: `w = igray(t)`. -/
def State.levelWord (s : State) (i : Nat) : Word := igray (s.levelTransform i)

/-- R142, stage 5: `r = gcr(n, mu, w)`. -/
def State.levelRank (s : State) (i : Nat) : Word := gcr s.N.toNat (s.levelMask i) (s.levelWord i)

/-- R143, stage 6: the buffer shifted by `popcount(mu)`, then the rank into its four highest-index bytes. -/
def State.levelAppend (s : State) (i : Nat) : Memory :=
  (s.B.shlWide s.S.toNat (popcount (s.levelMask i))).or32 s.S.toNat (s.levelRank i)

/-- R144, stage 7: the new `E`, with the old `D`. -/
def State.levelE (s : State) (i : Nat) : Word := s.E ^^^ rotl (entry (s.levelWord i)) s.D.toNat

/-- R144, stage 7: the new `D`, with the old `D`. -/
def State.levelD (s : State) (i : Nat) : BitVec 5 :=
  BitVec.ofNat 5 ((s.D.toNat + direction (s.levelWord i) s.N.toNat + 1) % s.N.toNat)

/-- R137: `level(i)`: every value is computed from the state before the level. -/
def State.level (s : State) (i : Nat) : State :=
  { s with
    B := s.levelAppend i, E := s.levelE i, D := s.levelD i, MU := s.levelMask i, L := s.levelCross i,
    T := s.levelTransform i, WV := s.levelWord i, R := s.levelRank i }

/-! ## The level loop (R145) and the commands' effects -/

/-- R136: the effect of hx.init. -/
def State.startComputation (s : State) : State :=
  { s.bufAlloc s.sizeNeeded with E := 0, D := 0, LVL := BitVec.ofNat 5 (s.maxWidth - 1), ACT := true }

/-- R145, R146: one level and the level control after it. -/
def State.advance (s : State) : State :=
  if s.LVL = 0 then { s.level 0 with ACT := false }
  else { s.level s.LVL.toNat with LVL := s.LVL - 1 }

/-- R146: the done flag hx.step responds. -/
def State.doneFlag (s : State) : Data := if s.LVL = 0 then 1 else 0

/-- R147: `for i = m-1 downto 0: level(i)`. -/
def State.runLevels : Nat → State → State
  | 0, s => s
  | i + 1, s => State.runLevels i (s.level i)

/-- R147: the effect of hx.run. -/
def State.computeIndex (s : State) : State :=
  { State.runLevels s.maxWidth { s.bufAlloc s.sizeNeeded with E := 0, D := 0 } with LVL := 0, ACT := false }

/-- R148: the effect of hx.abort. -/
def State.abandon (s : State) : State := { s with ACT := false }

end Sys2Proof.Machine
end

