-- ==== Sys2Proof/Machine/IndexEngine.lean ====
section
/-! DEFINITION. The index engine's commands (spec/42_engine.md R131 to R133, R136, R146 to R148). -/

namespace Sys2Proof.Machine

/-- R131: any 8-bit value is stored. -/
def execHxSetn (n : Nat) (s : State) : Result :=
  complete s [s.busy] (State.respond { s with N := BitVec.ofNat 8 n } 0)

/-- R132: any 8-bit width is stored. -/
def execHxSetw (axis width : Nat) (s : State) : Result :=
  complete s [s.busy, invalidIf (decide (32 ≤ axis))] ((s.setWidth axis (BitVec.ofNat 8 width)).respond 0)

/-- R133. -/
def execHxLdp (axis nbytes : Nat) (bytes : Word) (s : State) : Result :=
  complete s [s.busy, invalidIf (decide (32 ≤ axis ∨ 4 < nbytes))]
    (((s.setPoint axis (suppliedBytes bytes nbytes)).setPlen axis (BitVec.ofNat 3 nbytes)).respond 0)

/-- R136. -/
def execHxInit (s : State) : Result :=
  complete s (s.busy :: s.validate) (s.startComputation.respond (data64 s.sizeNeeded))

/-- R146: not subject to BUSY. -/
def execHxStep (s : State) : Result := complete s [s.noComputation] (s.advance.respond s.doneFlag)

/-- R147: the whole of computeIndex, as one indivisible command. -/
def execHxRun (s : State) : Result :=
  complete s (s.busy :: s.validate) (s.computeIndex.respond (data64 s.sizeNeeded))

/-- R148: no check, also when no computation is in progress. -/
def execHxAbort (s : State) : Result := complete s [] (s.abandon.respond 0)

end Sys2Proof.Machine
end

