-- ==== Sys2Proof/Machine/PrimitiveUnit.lean ====
section
/-! DEFINITION. The primitive unit's commands (spec/41_primitives.md R111 to R121). None reads or writes the buffer, the
engine's run state or the flags; none is subject to BUSY or NO_BUFFER; an operand outside its function's domain is
answered INVALID_ARGUMENT (R171). -/

namespace Sys2Proof.Machine

/-- R111. -/
def execPuGray (i : Word) (s : State) : Result := complete s [] (s.respond (zext64 (gray i)))

/-- R112. -/
def execPuIgray (g : Word) (s : State) : Result := complete s [] (s.respond (zext64 (igray g)))

/-- R113. -/
def execPuRotl (amount : Nat) (v : Word) (s : State) : Result :=
  complete s [invalidIf (decide (32 ≤ amount))] (s.respond (zext64 (rotl v amount)))

/-- R114. -/
def execPuRotr (amount : Nat) (v : Word) (s : State) : Result :=
  complete s [invalidIf (decide (32 ≤ amount))] (s.respond (zext64 (rotr v amount)))

/-- R115. -/
def execPuBitw (index : Nat) (v : Word) (s : State) : Result :=
  complete s [invalidIf (decide (32 ≤ index))] (s.respond (zext64 (BitVec.ofBool (bitAtWord v index))))

/-- R116. -/
def execPuBitb (axis index : Nat) (s : State) : Result :=
  complete s [invalidIf (decide (32 ≤ axis ∨ 32 ≤ index))]
    (s.respond (zext64 (BitVec.ofBool (bitAtBytes (pointBytes (s.point axis)) index))))

/-- R117. -/
def execPuPopc (v : Word) (s : State) : Result := complete s [] (s.respond (data64 (popcount v)))

/-- R118. -/
def execPuEntry (i : Word) (s : State) : Result := complete s [] (s.respond (zext64 (entry i)))

/-- R119. -/
def execPuDir (n : Nat) (i : Word) (s : State) : Result :=
  complete s [invalidIf (decide (n = 0 ∨ 32 < n))] (s.respond (data64 (direction i n)))

/-- R120: the widths are `W`, as stored; `n` is the packet's, not the register's. -/
def execPuXmask (n level d : Nat) (s : State) : Result :=
  complete s [invalidIf (decide (n = 0 ∨ 32 < n)), invalidIf (decide (n ≤ d))]
    (s.respond (zext64 (extractMask n s.W level d)))

/-- R121. -/
def execPuGcr (n : Nat) (mu w : Word) (s : State) : Result :=
  complete s [invalidIf (decide (32 < n))] (s.respond (zext64 (gcr n mu w)))

end Sys2Proof.Machine
end

