-- ==== Sys2Proof/Machine/System.lean ====
section
/-! DEFINITION. The register read port (spec/43_system.md R160, R161). There is no register write command (R162). -/

namespace Sys2Proof.Machine

/-- R161: the registers at the addresses 0x000 to 0x00A. -/
def State.readScalar (s : State) (address : Nat) : Option Data :=
  match address with
  | 0x000 => some s.statusWord
  | 0x001 => some (zext64 s.S)
  | 0x002 => some (zext64 s.N)
  | 0x003 => some (zext64 s.E)
  | 0x004 => some (zext64 s.D)
  | 0x005 => some (zext64 s.LVL)
  | 0x006 => some (zext64 s.MU)
  | 0x007 => some (zext64 s.L)
  | 0x008 => some (zext64 s.T)
  | 0x009 => some (zext64 s.WV)
  | 0x00A => some (zext64 s.R)
  | _ => none

/-- R161: the 64-bit value of the register at an address; none where the address is unmapped. -/
def State.readRegister (s : State) (address : Nat) : Option Data :=
  if 0x100 ≤ address ∧ address ≤ 0x11F then some (zext64 (s.width (address - 0x100)))
  else if 0x200 ≤ address ∧ address ≤ 0x21F then some (zext64 (s.point (address - 0x200)))
  else if 0x300 ≤ address ∧ address ≤ 0x31F then some (zext64 (s.plen (address - 0x300)))
  else s.readScalar address

/-- R160: allowed in every state. -/
def execCsRd (address : Nat) (s : State) : Result :=
  complete s [rangeIf (s.readRegister address).isNone] (s.respond ((s.readRegister address).getD 0))

end Sys2Proof.Machine
end

