-- ==== Sys2Proof/Machine/Dispatch.lean ====
section
/-! DEFINITION. One arm for each of the 28 commands (spec/30_encoding.md R64). -/

namespace Sys2Proof.Machine

def exec (i : Instr) (s : State) : Host.Outcome State Fault Refusal :=
  match i with
  | .bbCreate size => Sys2Proof.Machine.execBbCreate size s
  | .bbClear => Sys2Proof.Machine.execBbClear s
  | .bbShl n => Sys2Proof.Machine.execBbShl n s
  | .bbOrw x => Sys2Proof.Machine.execBbOrw x s
  | .bbXorw x => Sys2Proof.Machine.execBbXorw x s
  | .bbSetbit pos => Sys2Proof.Machine.execBbSetbit pos s
  | .bbRd64 => Sys2Proof.Machine.execBbRd64 s
  | .bbRdb index => Sys2Proof.Machine.execBbRdb index s
  | .bbRelease => Sys2Proof.Machine.execBbRelease s
  | .puGray v => Sys2Proof.Machine.execPuGray v s
  | .puIgray v => Sys2Proof.Machine.execPuIgray v s
  | .puRotl amount v => Sys2Proof.Machine.execPuRotl amount v s
  | .puRotr amount v => Sys2Proof.Machine.execPuRotr amount v s
  | .puBitw index v => Sys2Proof.Machine.execPuBitw index v s
  | .puBitb axis index => Sys2Proof.Machine.execPuBitb axis index s
  | .puPopc v => Sys2Proof.Machine.execPuPopc v s
  | .puEntry v => Sys2Proof.Machine.execPuEntry v s
  | .puDir n v => Sys2Proof.Machine.execPuDir n v s
  | .puXmask n level d => Sys2Proof.Machine.execPuXmask n level d s
  | .puGcr n mu w => Sys2Proof.Machine.execPuGcr n mu w s
  | .hxSetn n => Sys2Proof.Machine.execHxSetn n s
  | .hxSetw axis width => Sys2Proof.Machine.execHxSetw axis width s
  | .hxLdp axis nbytes bytes => Sys2Proof.Machine.execHxLdp axis nbytes bytes s
  | .hxInit => Sys2Proof.Machine.execHxInit s
  | .hxStep => Sys2Proof.Machine.execHxStep s
  | .hxRun => Sys2Proof.Machine.execHxRun s
  | .hxAbort => Sys2Proof.Machine.execHxAbort s
  | .csRd address => Sys2Proof.Machine.execCsRd address s

end Sys2Proof.Machine
end

