-- ==== Sys2Proof/Machine/Channel.lean ====
section
/-! DEFINITION. What the block does with what the host offers next (spec/30_encoding.md R60, R69): a packet is decoded and
executed or refused as illegal, a reset is taken, and with nothing offered the block is idle. -/

namespace Sys2Proof.Machine

/-- R69, R178: a packet is decoded; an illegal one is answered ILLEGAL and discarded (R65, R177). -/
def acceptPacket (p : Packet) (s : State) : Result :=
  match decode p with
  | .ok i => exec i s
  | .error _ => .next (s.raise .illegal)

/-- One event of the host (R60, R191), or none: the idle block keeps all state (R184; notes/assumptions/2.md). -/
def takeEvent (event : Option HostEvent) (s : State) : Result :=
  match event with
  | none => .next s
  | some .rst => .next s.takeReset
  | some (.packet p) => acceptPacket p s

/-- The host offers a packet to be accepted next. -/
def State.offer (s : State) (p : Packet) : State := { s with inputs := .packet p :: s.inputs }

end Sys2Proof.Machine
end

