-- ==== Sys2Proof/Machine/Step.lean ====
section
/-! DEFINITION. One step of the machine (spec/30_encoding.md R69, spec/70_reset_and_hazards.md R199): it takes the oldest
thing the host still offers. -/

namespace Sys2Proof.Machine

/-- One step: one command, one reset, or, with nothing offered, an idle step. -/
def step (s : State) : Host.Outcome State Fault Refusal := takeEvent s.nextInput s

/-- The table word as the packet the very next step accepts (notes/assumptions/12.md). -/
def State.withFetchWord (s : State) (nbits w : Nat) : State := s.offer (packetOfTableWord nbits w)

end Sys2Proof.Machine
end

