-- ==== Sys2Proof/Machine/Assembler.lean ====
section
/-! DEFINITION. The assembler of spec/30_encoding.md: the text of a command (R67), the raw packet line, and the
pseudo-commands with their expansions (R68). It is a convenience of the host; the hardware knows only the 28 commands
(R68). What the spec leaves open about ill-formed text is in notes/assumptions/9.md. -/

namespace Sys2Proof.Machine

/-! ## Pseudo-commands (R68) -/

/-- The four pseudo-commands of R68. -/
inductive Pseudo where
  /-- `bb.shln k`. -/
  | bbShln (k : Nat)
  /-- `bb.setbyte index, value`. -/
  | bbSetbyte (index value : Nat)
  /-- `hx.point j, width, value`. -/
  | hxPoint (axis width value : Nat)
  /-- `hx.index`. -/
  | hxIndex
deriving DecidableEq, Repr

/-- R68: the operand ranges of a pseudo-command; the commands it expands to must fit their fields. -/
def Pseudo.inRange : Pseudo → Bool
  | .bbShln k => decide (k ≤ 65535)
  | .bbSetbyte index value => decide (value ≤ 255 ∧ 8 * index + 7 ≤ 65535)
  | .hxPoint axis width value => decide (axis < 256 ∧ 1 ≤ width ∧ width ≤ 32 ∧ value < 2 ^ width)
  | .hxIndex => true

/-- R68: the commands a pseudo-command stands for. -/
def Pseudo.expand : Pseudo → List Instr
  | .bbShln k => List.replicate (k / 7) (.bbShl 7) ++ (if k % 7 = 0 then [] else [.bbShl (k % 7)])
  | .bbSetbyte index value =>
    ((List.range 8).filter (fun t => value.testBit t)).map (fun t => .bbSetbit (8 * index + t))
  | .hxPoint axis width value => [.hxSetw axis width, .hxLdp axis (ceil8 width) (BitVec.ofNat 32 value)]
  | .hxIndex => [.hxRun]

/-! ## Numbers and operands (R67) -/

/-- The value of one digit in a base up to 16. -/
def digitValue (base : Nat) (c : Char) : Option Nat :=
  let v := if '0' ≤ c ∧ c ≤ '9' then c.toNat - 48
    else if 'a' ≤ c ∧ c ≤ 'f' then c.toNat - 87
    else if 'A' ≤ c ∧ c ≤ 'F' then c.toNat - 55
    else 16
  if v < base then some v else none

/-- The digits of a number read on from `acc`. -/
def digitsFrom (base : Nat) : Nat → List Char → Option Nat
  | acc, [] => some acc
  | acc, c :: rest =>
    match digitValue base c with
    | some v => digitsFrom base (acc * base + v) rest
    | none => none

/-- R67: "Numbers are decimal, `0x` hexadecimal or `0b` binary." -/
def parseNumber : List Char → Option Nat
  | [] => none
  | '0' :: 'x' :: c :: rest => digitsFrom 16 0 (c :: rest)
  | '0' :: 'b' :: c :: rest => digitsFrom 2 0 (c :: rest)
  | text => digitsFrom 10 0 text

/-- Text without the blanks at both ends. -/
def trimBlanks (text : List Char) : List Char :=
  ((text.dropWhile (· == ' ')).reverse.dropWhile (· == ' ')).reverse

/-- The pieces of a text between separators. -/
def splitPieces (separator : Char) : List Char → List (List Char)
  | [] => [[]]
  | c :: rest =>
    if c = separator then [] :: splitPieces separator rest
    else match splitPieces separator rest with
      | [] => [[c]]
      | piece :: more => (c :: piece) :: more

/-- The operands of a line: none, or numbers separated by commas (R67). -/
def parseOperands (text : List Char) : Option (List Nat) :=
  if text = [] then some [] else (splitPieces ',' text).mapM (fun piece => parseNumber (trimBlanks piece))

/-! ## Lines -/

/-- The control word of a row and the operands left over: the `ctl` fields in the order `a`, `b`, `c`, or the one
`imm16` (R67), each within its field. -/
def takeCtl (r : OpcodeRow) (operands : List Nat) : Option (Word × List Nat) :=
  match r.format, operands with
  | .Z, rest => some (ctlOf r.opcode 0 0 0, rest)
  | .A, a :: rest => if fitsByte a then some (ctlOf r.opcode a 0 0, rest) else none
  | .AB, a :: b :: rest => if fitsByte a && fitsByte b then some (ctlOf r.opcode a b 0, rest) else none
  | .ABC, a :: b :: c :: rest =>
    if fitsByte a && fitsByte b && fitsByte c then some (ctlOf r.opcode a b c, rest) else none
  | .I, imm :: rest => if fitsImm imm then some (ctlOfImm r.opcode imm, rest) else none
  | _, _ => none

/-- A word operand where the command has one; zero, and nothing taken, where it has none (R67). -/
def takeWord (reads : Bool) (operands : List Nat) : Option (Word × List Nat) :=
  match reads, operands with
  | false, rest => some (0, rest)
  | true, v :: rest => if v < 2 ^ 32 then some (BitVec.ofNat 32 v, rest) else none
  | true, [] => none

/-- The packet of one row of the opcode map with these operands. -/
def assembleRow (r : OpcodeRow) (operands : List Nat) : Option Packet :=
  match takeCtl r operands with
  | none => none
  | some (ctl, rest) =>
    match takeWord r.readsA rest with
    | none => none
    | some (opA, rest) =>
      match takeWord r.readsB rest with
      | some (opB, []) => some (Packet.ofWords ctl opA opB)
      | _ => none

/-- The packets of a pseudo-command whose operands are in range. -/
def assemblePseudo (p : Pseudo) : Option (List Packet) :=
  if p.inRange then some (p.expand.map encode) else none

/-- R67: `.packet ctl, opA, opB`, a raw packet. -/
def assembleRaw (ctl opA opB : Nat) : Option (List Packet) :=
  if ctl < 2 ^ 32 ∧ opA < 2 ^ 32 ∧ opB < 2 ^ 32 then
    some [Packet.ofWords (BitVec.ofNat 32 ctl) (BitVec.ofNat 32 opA) (BitVec.ofNat 32 opB)]
  else none

/-- The packets of a mnemonic with its operands (R67, R68). -/
def assembleCommand (mnemonic : List Char) (operands : List Nat) : Option (List Packet) :=
  if mnemonic = ".packet".toList then
    match operands with
    | [ctl, opA, opB] => assembleRaw ctl opA opB
    | _ => none
  else if mnemonic = "bb.shln".toList then
    match operands with
    | [k] => assemblePseudo (.bbShln k)
    | _ => none
  else if mnemonic = "bb.setbyte".toList then
    match operands with
    | [index, value] => assemblePseudo (.bbSetbyte index value)
    | _ => none
  else if mnemonic = "hx.point".toList then
    match operands with
    | [axis, width, value] => assemblePseudo (.hxPoint axis width value)
    | _ => none
  else if mnemonic = "hx.index".toList then
    match operands with
    | [] => assemblePseudo .hxIndex
    | _ => none
  else
    match opcodeTable.find? (fun r => decide (r.mnemonic.toList = mnemonic)) with
    | some r => (assembleRow r operands).map (fun p => [p])
    | none => none

/-- The packets of one line: "One command per line; `#` starts a comment" (R67). An empty line has none. -/
def assembleLine (line : List Char) : Option (List Packet) :=
  let text := trimBlanks (line.takeWhile (· != '#'))
  if text = [] then some []
  else
    match parseOperands (trimBlanks (text.dropWhile (· != ' '))) with
    | some operands => assembleCommand (text.takeWhile (· != ' ')) operands
    | none => none

/-- The packets of a program text, line by line; none where a line is ill formed. -/
def assemble (text : String) : Option (List Packet) :=
  ((splitPieces '\n' text.toList).mapM assembleLine).map List.flatten

end Sys2Proof.Machine
end

