-- ==== Sys2Proof/Safety.lean ====
section
/-! DEFINITION. The terms the statements use: what it is for a state to keep the rules' invariants (R12, R13, R14, R19,
R21, R23 of spec/10_state.md), what a refusal leaves (spec/60_exceptions.md R179), the status the rules give each command
(R170 to R178), runs of commands, and the index a computation accumulates (spec/42_engine.md R149). Nothing here is used
by the machine. -/

namespace Sys2Proof.Safety

open Sys2Proof.Machine

/-! ## States -/

/-- No architectural state (R10), nor the instance's parameter, differs. -/
structure SameArch (s t : State) : Prop where
  cfg : t.cfg = s.cfg
  B : t.B = s.B
  S : t.S = s.S
  BV : t.BV = s.BV
  N : t.N = s.N
  W : t.W = s.W
  P : t.P = s.P
  PLEN : t.PLEN = s.PLEN
  E : t.E = s.E
  D : t.D = s.D
  LVL : t.LVL = s.LVL
  ACT : t.ACT = s.ACT
  MU : t.MU = s.MU
  L : t.L = s.L
  T : t.T = s.T
  WV : t.WV = s.WV
  R : t.R = s.R

/-- R28: every piece of architectural state is zero. -/
structure AllZero (t : State) : Prop where
  B : ∀ k, t.byte k = 0
  S : t.S = 0
  BV : t.BV = false
  N : t.N = 0
  W : ∀ j, j < 32 → t.width j = 0
  P : ∀ j, j < 32 → t.point j = 0
  PLEN : ∀ j, j < 32 → t.plen j = 0
  E : t.E = 0
  D : t.D = 0
  LVL : t.LVL = 0
  ACT : t.ACT = false
  MU : t.MU = 0
  L : t.L = 0
  T : t.T = 0
  WV : t.WV = 0
  R : t.R = 0

/-- R23: what holds while a stepped computation is in progress. -/
structure Running (s : State) : Prop where
  buffer : s.BV = true
  axes : 1 ≤ s.N.toNat ∧ s.N.toNat ≤ 32
  widths : ∀ j, j < s.N.toNat → 1 ≤ (s.width j).toNat ∧ (s.width j).toNat ≤ 32
  lengths : ∀ j, j < s.N.toNat → ceil8 (s.width j).toNat ≤ (s.plen j).toNat
  size : s.S.toNat = s.sizeNeeded
  direction : s.D.toNat < s.N.toNat
  level : s.LVL.toNat < s.maxWidth

/-- The invariants of R12, R13, R14, R19 and R23, the parameter's range (R5), and the storage's canonical form. -/
structure Inv (s : State) : Prop where
  capacity : s.cfg.Valid
  canonical : s.B.wf
  size : s.BV = true → 4 ≤ s.S.toNat ∧ s.S.toNat ≤ s.cfg.bufBytes
  noBuffer : s.BV = false → s.S = 0
  outside : ∀ k, s.S.toNat ≤ k → s.byte k = 0
  lengths : ∀ j, j < 32 → (s.plen j).toNat ≤ 4
  points : ∀ j, j < 32 → (s.point j).toNat < 2 ^ (8 * (s.plen j).toNat)
  running : s.ACT = true → Running s

/-- R135: the configuration `validate()` accepts, the allocation apart. -/
structure ConfigOk (s : State) : Prop where
  axes : 1 ≤ s.N.toNat ∧ s.N.toNat ≤ 32
  widths : ∀ j, j < s.N.toNat → 1 ≤ (s.width j).toNat ∧ (s.width j).toNat ≤ 32
  lengths : ∀ j, j < s.N.toNat → ceil8 (s.width j).toNat ≤ (s.plen j).toNat

/-- What an idle block needs for a computation to start (R135, R136): a configuration that validates and room for its
buffer. -/
structure CanStart (s : State) : Prop where
  idle : s.ACT = false
  config : ConfigOk s
  room : s.sizeNeeded ≤ s.cfg.bufBytes

/-- R179: a refusal leaves the state as it was; the command's packet is gone from the channel and its one response
is the status with data 0. -/
def refused (s : State) (status : Status) : State :=
  { s with inputs := s.inputs.tail, rsps := s.rsps ++ [⟨status, 0⟩] }

/-- R60, R66: a command that only responds leaves the state as it was; its packet is gone from the channel and its one
response is OK with this data. -/
def answered (s : State) (data : Data) : State :=
  { s with inputs := s.inputs.tail, rsps := s.rsps ++ [⟨.ok, data⟩] }

/-! ## The status the rules give a command (R170 to R178) -/

/-- R175: the commands refused while a stepped computation is in progress. -/
def interlocked : Instr → Bool
  | .bbCreate _ | .bbClear | .bbShl _ | .bbOrw _ | .bbXorw _ | .bbSetbit _ | .bbRelease | .hxSetn _ | .hxSetw _ _
  | .hxLdp _ _ _ | .hxInit | .hxRun => true
  | .bbRd64 | .bbRdb _ | .puGray _ | .puIgray _ | .puRotl _ _ | .puRotr _ _ | .puBitw _ _ | .puBitb _ _ | .puPopc _
  | .puEntry _ | .puDir _ _ | .puXmask _ _ _ | .puGcr _ _ _ | .hxStep | .hxAbort | .csRd _ => false

/-- R173: a `bb.*` command other than `bb.create`. -/
def needsBuffer : Instr → Bool
  | .bbClear | .bbShl _ | .bbOrw _ | .bbXorw _ | .bbSetbit _ | .bbRd64 | .bbRdb _ | .bbRelease => true
  | .bbCreate _ | .puGray _ | .puIgray _ | .puRotl _ _ | .puRotr _ _ | .puBitw _ _ | .puBitb _ _ | .puPopc _
  | .puEntry _ | .puDir _ _ | .puXmask _ _ _ | .puGcr _ _ _ | .hxSetn _ | .hxSetw _ _ | .hxLdp _ _ _ | .hxInit
  | .hxStep | .hxRun | .hxAbort | .csRd _ => false

/-- R171: the complete list of causes of INVALID_ARGUMENT. -/
def badOperand (s : State) : Instr → Bool
  | .hxInit | .hxRun =>
    decide (s.N.toNat < 1 ∨ 32 < s.N.toNat ∨
      (∃ j, j < s.N.toNat ∧ ((s.width j).toNat < 1 ∨ 32 < (s.width j).toNat)) ∨
      (∃ j, j < s.N.toNat ∧ (s.plen j).toNat < ceil8 (s.width j).toNat))
  | .bbShl n => decide (8 ≤ n)
  | .puRotl amount _ | .puRotr amount _ => decide (32 ≤ amount)
  | .puBitw index _ => decide (32 ≤ index)
  | .puBitb axis index => decide (32 ≤ axis ∨ 32 ≤ index)
  | .puDir n _ => decide (n < 1 ∨ 32 < n)
  | .puXmask n _ d => decide (n < 1 ∨ 32 < n ∨ n ≤ d)
  | .puGcr n _ _ => decide (32 < n)
  | .hxSetw axis _ => decide (32 ≤ axis)
  | .hxLdp axis nbytes _ => decide (32 ≤ axis ∨ 4 < nbytes)
  | .bbCreate _ | .bbClear | .bbOrw _ | .bbXorw _ | .bbSetbit _ | .bbRd64 | .bbRdb _ | .bbRelease | .puGray _
  | .puIgray _ | .puPopc _ | .puEntry _ | .hxSetn _ | .hxStep | .hxAbort | .csRd _ => false

/-- R161: the addresses of the register map. -/
abbrev mapped (address : Nat) : Prop :=
  address ≤ 0x00A ∨ (0x100 ≤ address ∧ address ≤ 0x11F) ∨ (0x200 ≤ address ∧ address ≤ 0x21F) ∨
    (0x300 ≤ address ∧ address ≤ 0x31F)

/-- R174: the causes of RANGE. -/
def outOfRange (s : State) : Instr → Bool
  | .bbSetbit pos => decide (8 * s.S.toNat ≤ pos)
  | .bbRdb index => decide (s.S.toNat ≤ index)
  | .bbRd64 => decide (s.S.toNat < 8)
  | .csRd address => decide (¬ mapped address)
  | .bbCreate _ | .bbClear | .bbShl _ | .bbOrw _ | .bbXorw _ | .bbRelease | .puGray _ | .puIgray _ | .puRotl _ _
  | .puRotr _ _ | .puBitw _ _ | .puBitb _ _ | .puPopc _ | .puEntry _ | .puDir _ _ | .puXmask _ _ _ | .puGcr _ _ _
  | .hxSetn _ | .hxSetw _ _ | .hxLdp _ _ _ | .hxInit | .hxStep | .hxRun | .hxAbort => false

/-- R172: the causes of ALLOCATION_FAILURE. -/
def noCapacity (s : State) : Instr → Bool
  | .bbCreate size => decide (s.cfg.bufBytes < max size 4)
  | .hxInit | .hxRun => decide (s.cfg.bufBytes < s.sizeNeeded)
  | .bbClear | .bbShl _ | .bbOrw _ | .bbXorw _ | .bbSetbit _ | .bbRd64 | .bbRdb _ | .bbRelease | .puGray _
  | .puIgray _ | .puRotl _ _ | .puRotr _ _ | .puBitw _ _ | .puBitb _ _ | .puPopc _ | .puEntry _ | .puDir _ _
  | .puXmask _ _ _ | .puGcr _ _ _ | .hxSetn _ | .hxSetw _ _ | .hxLdp _ _ _ | .hxStep | .hxAbort | .csRd _ => false

/-- R178: the status of a command that decoded: of the conditions in the rule's order, the first that holds decides. -/
def statusOf (s : State) (i : Instr) : Status :=
  if interlocked i && s.ACT then .busy
  else if decide (i = .hxStep) && !s.ACT then .sequence
  else if needsBuffer i && !s.BV then .noBuffer
  else if badOperand s i then .invalidArgument
  else if outOfRange s i then .range
  else if noCapacity s i then .allocationFailure
  else .ok

/-- R47, R124: the commands that only read. -/
def readOnly : Instr → Bool
  | .bbRd64 | .bbRdb _ | .puGray _ | .puIgray _ | .puRotl _ _ | .puRotr _ _ | .puBitw _ _ | .puBitb _ _ | .puPopc _
  | .puEntry _ | .puDir _ _ | .puXmask _ _ _ | .puGcr _ _ _ | .csRd _ => true
  | .bbCreate _ | .bbClear | .bbShl _ | .bbOrw _ | .bbXorw _ | .bbSetbit _ | .bbRelease | .hxSetn _ | .hxSetw _ _
  | .hxLdp _ _ _ | .hxInit | .hxStep | .hxRun | .hxAbort => false

/-- R47: the writes that give the same state when repeated. -/
def idempotent : Instr → Bool
  | .bbOrw _ | .bbSetbit _ | .bbClear | .hxSetn _ | .hxSetw _ _ | .hxLdp _ _ _ | .hxAbort => true
  | .bbCreate _ | .bbShl _ | .bbXorw _ | .bbRd64 | .bbRdb _ | .bbRelease | .puGray _ | .puIgray _ | .puRotl _ _
  | .puRotr _ _ | .puBitw _ _ | .puBitb _ _ | .puPopc _ | .puEntry _ | .puDir _ _ | .puXmask _ _ _ | .puGcr _ _ _
  | .hxInit | .hxStep | .hxRun | .csRd _ => false

/-- R27: the commands that write a byte of the buffer. -/
def writesBuffer : Instr → Bool
  | .bbCreate _ | .bbClear | .bbShl _ | .bbOrw _ | .bbXorw _ | .bbSetbit _ | .bbRelease | .hxInit | .hxStep
  | .hxRun => true
  | .bbRd64 | .bbRdb _ | .puGray _ | .puIgray _ | .puRotl _ _ | .puRotr _ _ | .puBitw _ _ | .puBitb _ _ | .puPopc _
  | .puEntry _ | .puDir _ _ | .puXmask _ _ _ | .puGcr _ _ _ | .hxSetn _ | .hxSetw _ _ | .hxLdp _ _ _ | .hxAbort
  | .csRd _ => false

/-! ## Packets (R65) -/

/-- R65: the opcodes that are not one of the 28. -/
abbrev undefinedOpcode (op : Nat) : Prop :=
  op ≤ 0x0F ∨ (0x19 ≤ op ∧ op ≤ 0x1F) ∨ (0x2B ≤ op ∧ op ≤ 0x2F) ∨ (0x37 ≤ op ∧ op ≤ 0x3F) ∨ 0x41 ≤ op

/-- R62, R65: a field the opcode's format reserves is not zero. Formats Z, A, AB and I by their opcodes in R64; ABC
reserves nothing. -/
abbrev reservedSet (ctl : Word) : Prop :=
  (ctlOpcode ctl ∈ [0x11, 0x13, 0x14, 0x16, 0x18, 0x20, 0x21, 0x26, 0x27, 0x33, 0x34, 0x35, 0x36] ∧
      (ctlA ctl ≠ 0 ∨ ctlB ctl ≠ 0 ∨ ctlC ctl ≠ 0)) ∨
    (ctlOpcode ctl ∈ [0x12, 0x22, 0x23, 0x24, 0x28, 0x2A, 0x30] ∧ (ctlB ctl ≠ 0 ∨ ctlC ctl ≠ 0)) ∨
    (ctlOpcode ctl ∈ [0x25, 0x31, 0x32] ∧ ctlC ctl ≠ 0) ∨
    (ctlOpcode ctl ∈ [0x10, 0x15, 0x17, 0x40] ∧ ctlA ctl ≠ 0)

/-- R65: an illegal packet. -/
abbrev IllegalPacket (p : Packet) : Prop := undefinedOpcode (ctlOpcode p.ctl) ∨ reservedSet p.ctl

/-! ## Runs of commands -/

/-- The state after these commands, one after the other; none if one does not answer a next state. -/
def runCommands : List Instr → State → Option State
  | [], s => some s
  | i :: rest, s =>
    match exec i s with
    | .next t => runCommands rest t
    | .fault _ => none
    | .refused _ => none

/-- A buffer bit, counted through the bytes (R15): bit `pos mod 8` of byte `pos div 8`. -/
def bufferBit (m : Memory) (pos : Nat) : Bool := (m.read (pos / 8)).getLsbD (pos % 8)

/-- The number of set bits of a word below bit `n`. -/
def bitsBelow (v : Word) (n : Nat) : Nat := (List.range n).countP (fun k => v.getLsbD k)

/-! ## The index of a computation (R149) -/

/-- R149: the ranks of levels `i - 1` down to 0 appended to `h`, each as its count of bits, from these `E` and `D`. No
buffer takes part. -/
def appendRanks (s : State) : Nat → Word → BitVec 5 → Nat → Nat
  | 0, _, _, h => h
  | i + 1, e, d, h =>
    appendRanks s i (State.levelE { s with E := e, D := d } i) (State.levelD { s with E := e, D := d } i)
      (h * 2 ^ popcount (State.levelMask { s with E := e, D := d } i)
        + (State.levelRank { s with E := e, D := d } i).toNat)

/-- R149: `h`, the concatenation of the ranks of all levels. -/
def fullIndex (s : State) : Nat := appendRanks s s.maxWidth 0 0 0

end Sys2Proof.Safety
end

