-- ==== Sys2Proof/Certificates/Slice0/Obligations.lean ====
section
/-! DEFINITION. The statements for the provers, one `def Obligations.<Name> : Prop` each, from the numbered rules of
spec/. OBLIGATIONS.json says for each what it formalises. `refused s status` and `answered s data` (Safety.lean) are the
state `s` with its packet gone from the channel and one response given, and nothing else changed. -/

open Sys2Proof Sys2Proof.Machine Sys2Proof.Safety

/-! ## Encoding (30_encoding.md) -/

/-- R61 to R64: decoding the packet of a well-formed command gives the command back. -/
def Obligations.DecodeEncodeRoundTrip : Prop :=
  ∀ i : Instr, i.wellFormed = true → decode (encode i) = .ok i

/-- R61, R62: a legal packet and the packet encoded from its command carry the same control word and the same word
operands where the command reads them; what it does not read is dropped. -/
def Obligations.DecodedPacketKeepsItsFields : Prop :=
  ∀ (p : Packet) (i : Instr), decode p = .ok i →
    i.wellFormed = true ∧ (encode i).ctl = p.ctl ∧
      ∃ r ∈ opcodeTable, r.opcode = ctlOpcode p.ctl ∧ (encode i).opA = (if r.readsA then p.opA else 0) ∧
        (encode i).opB = (if r.readsB then p.opB else 0)

/-- R65: a packet is illegal by its opcode or a reserved field and is then answered ILLEGAL with no other change; every
other packet selects exactly one command, which is executed. -/
def Obligations.IllegalPacketsAreAnsweredIllegal : Prop :=
  ∀ (s : State) (p : Packet) (rest : List HostEvent), s.inputs = .packet p :: rest →
    (IllegalPacket p → step s = .next { s with inputs := rest, rsps := s.rsps ++ [⟨.illegal, 0⟩] }) ∧
    (¬ IllegalPacket p → ∃ i, decode p = .ok i ∧ step s = exec i s)

/-- R64, R67: a few words written out from the spec's encodings decode to their commands. -/
def Obligations.SpecPacketsDecode : Prop :=
  decode 0x000000000000000000100010#96 = .ok (.bbCreate 16) ∧
  decode 0x000000000000000000000312#96 = .ok (.bbShl 3) ∧
  decode 0x000000070000000F0000022A#96 = .ok (.puGcr 2 0xF 0x7) ∧
  decode 0x000000000000000001040329#96 = .ok (.puXmask 3 4 1) ∧
  decode 0x000000000000003C00010132#96 = .ok (.hxLdp 1 1 0x3C) ∧
  decode 0x000000000000000000030040#96 = .ok (.csRd 3) ∧
  decode 0x000000000000000000000111#96 = .error .reservedField ∧
  decode 0x000000000000000000000000#96 = .error .undefinedOpcode

/-- R64, R61, R62: each of the 28 rows of the opcode map, at every value of its fields and whatever the word operands
hold: the packet `{y, x, ctl}` with the row's `ctl` selects the row's command with those operands. -/
def Obligations.EveryRowDecodesAtEveryOperand : Prop :=
  ∀ (a b c : BitVec 8) (imm : BitVec 16) (x y : Word),
  decode (y ++ x ++ (imm ++ 0#8 ++ 0x10#8)) = .ok (.bbCreate imm.toNat) ∧
  decode (y ++ x ++ (0#8 ++ 0#8 ++ 0#8 ++ 0x11#8)) = .ok .bbClear ∧
  decode (y ++ x ++ (0#8 ++ 0#8 ++ a ++ 0x12#8)) = .ok (.bbShl a.toNat) ∧
  decode (y ++ x ++ (0#8 ++ 0#8 ++ 0#8 ++ 0x13#8)) = .ok (.bbOrw x) ∧
  decode (y ++ x ++ (0#8 ++ 0#8 ++ 0#8 ++ 0x14#8)) = .ok (.bbXorw x) ∧
  decode (y ++ x ++ (imm ++ 0#8 ++ 0x15#8)) = .ok (.bbSetbit imm.toNat) ∧
  decode (y ++ x ++ (0#8 ++ 0#8 ++ 0#8 ++ 0x16#8)) = .ok .bbRd64 ∧
  decode (y ++ x ++ (imm ++ 0#8 ++ 0x17#8)) = .ok (.bbRdb imm.toNat) ∧
  decode (y ++ x ++ (0#8 ++ 0#8 ++ 0#8 ++ 0x18#8)) = .ok .bbRelease ∧
  decode (y ++ x ++ (0#8 ++ 0#8 ++ 0#8 ++ 0x20#8)) = .ok (.puGray x) ∧
  decode (y ++ x ++ (0#8 ++ 0#8 ++ 0#8 ++ 0x21#8)) = .ok (.puIgray x) ∧
  decode (y ++ x ++ (0#8 ++ 0#8 ++ a ++ 0x22#8)) = .ok (.puRotl a.toNat x) ∧
  decode (y ++ x ++ (0#8 ++ 0#8 ++ a ++ 0x23#8)) = .ok (.puRotr a.toNat x) ∧
  decode (y ++ x ++ (0#8 ++ 0#8 ++ a ++ 0x24#8)) = .ok (.puBitw a.toNat x) ∧
  decode (y ++ x ++ (0#8 ++ b ++ a ++ 0x25#8)) = .ok (.puBitb a.toNat b.toNat) ∧
  decode (y ++ x ++ (0#8 ++ 0#8 ++ 0#8 ++ 0x26#8)) = .ok (.puPopc x) ∧
  decode (y ++ x ++ (0#8 ++ 0#8 ++ 0#8 ++ 0x27#8)) = .ok (.puEntry x) ∧
  decode (y ++ x ++ (0#8 ++ 0#8 ++ a ++ 0x28#8)) = .ok (.puDir a.toNat x) ∧
  decode (y ++ x ++ (c ++ b ++ a ++ 0x29#8)) = .ok (.puXmask a.toNat b.toNat c.toNat) ∧
  decode (y ++ x ++ (0#8 ++ 0#8 ++ a ++ 0x2A#8)) = .ok (.puGcr a.toNat x y) ∧
  decode (y ++ x ++ (0#8 ++ 0#8 ++ a ++ 0x30#8)) = .ok (.hxSetn a.toNat) ∧
  decode (y ++ x ++ (0#8 ++ b ++ a ++ 0x31#8)) = .ok (.hxSetw a.toNat b.toNat) ∧
  decode (y ++ x ++ (0#8 ++ b ++ a ++ 0x32#8)) = .ok (.hxLdp a.toNat b.toNat x) ∧
  decode (y ++ x ++ (0#8 ++ 0#8 ++ 0#8 ++ 0x33#8)) = .ok .hxInit ∧
  decode (y ++ x ++ (0#8 ++ 0#8 ++ 0#8 ++ 0x34#8)) = .ok .hxStep ∧
  decode (y ++ x ++ (0#8 ++ 0#8 ++ 0#8 ++ 0x35#8)) = .ok .hxRun ∧
  decode (y ++ x ++ (0#8 ++ 0#8 ++ 0#8 ++ 0x36#8)) = .ok .hxAbort ∧
  decode (y ++ x ++ (imm ++ 0#8 ++ 0x40#8)) = .ok (.csRd imm.toNat)

/-- R66, R170: the wire form of a response and the codes of the eight statuses. -/
def Obligations.ResponseBitsAreStatusThenData : Prop :=
  (∀ r : Response, r.bits.extractLsb' 0 64 = r.data ∧ r.bits.extractLsb' 64 8 = r.status.code) ∧
  [Status.ok, .invalidArgument, .allocationFailure, .noBuffer, .range, .busy, .sequence, .illegal].map Status.code =
    [0x00#8, 0x01#8, 0x02#8, 0x03#8, 0x04#8, 0x05#8, 0x06#8, 0x07#8]

/-! ## The step -/

/-- R69: when the next thing offered is a packet that decodes to a command, the step is that command's execution. -/
def Obligations.StepRunsTheDecodedCommand : Prop :=
  ∀ (s : State) (p : Packet) (rest : List HostEvent) (i : Instr),
    s.inputs = .packet p :: rest → decode p = .ok i → step s = exec i s

/-- The model's choice (notes/assumptions/2.md), after R184: with nothing offered a step leaves the block as it is. -/
def Obligations.IdleStepKeepsAllState : Prop :=
  ∀ s : State, s.inputs = [] → step s = .next s

/-- R190, R191: a reset between two commands zeroes every piece of architectural state, whatever it was. -/
def Obligations.ResetEventZeroesTheState : Prop :=
  ∀ (s : State) (rest : List HostEvent), s.inputs = .rst :: rest →
    ∃ t, step s = .next t ∧ AllZero t ∧ t.cfg = s.cfg ∧ t.inputs = rest ∧ t.rsps = s.rsps

/-- R28: after reset every piece of state is zero. -/
def Obligations.ResetStateIsAllZero : Prop := AllZero State.reset

/-- R60, R66: every accepted packet gives exactly one response, in order, with data 0 unless the status is OK. -/
def Obligations.EveryPacketIsAnsweredOnce : Prop :=
  ∀ (s : State) (p : Packet) (rest : List HostEvent), s.inputs = .packet p :: rest →
    ∃ t r, step s = .next t ∧ t.inputs = rest ∧ t.rsps = s.rsps ++ [r] ∧ (r.status ≠ .ok → r.data = 0) ∧ t.cfg = s.cfg

/-! ## Status codes and refusals (60_exceptions.md) -/

/-- R178, with the conditions of R171 to R177: the first condition that holds, in the rule's order, is the status. -/
def Obligations.StatusIsTheFirstFailingCheck : Prop :=
  (∀ (s : State) (p : Packet) (rest : List HostEvent), s.inputs = .packet p :: rest → IllegalPacket p →
    ∃ t, step s = .next t ∧ t.rsps = s.rsps ++ [⟨.illegal, 0⟩]) ∧
  (∀ (s : State) (i : Instr), ∃ t r, exec i s = .next t ∧ t.rsps = s.rsps ++ [r] ∧ r.status = statusOf s i)

/-- R179: a command that reports a status other than OK changes no architectural state and returns data 0. -/
def Obligations.RefusalChangesNothing : Prop :=
  ∀ (i : Instr) (s t : State) (r : Response), exec i s = .next t → t.rsps = s.rsps ++ [r] → r.status ≠ .ok →
    SameArch s t ∧ r.data = 0 ∧ t.inputs = s.inputs.tail

/-- R172: when a buffer cannot be sized; with the default capacity or more the engine never fails so, with a smaller one
it can. -/
def Obligations.AllocationFailsExactlyBeyondCapacity : Prop :=
  (∀ (s : State) (size : Nat), s.ACT = false →
    (exec (.bbCreate size) s = .next (refused s .allocationFailure) ↔ s.cfg.bufBytes < max size 4)) ∧
  (∀ s : State, s.ACT = false → ConfigOk s →
    (exec .hxInit s = .next (refused s .allocationFailure) ↔ s.cfg.bufBytes < s.sizeNeeded) ∧
    (exec .hxRun s = .next (refused s .allocationFailure) ↔ s.cfg.bufBytes < s.sizeNeeded)) ∧
  (∀ s : State, 128 ≤ s.cfg.bufBytes →
    exec .hxInit s ≠ .next (refused s .allocationFailure) ∧ exec .hxRun s ≠ .next (refused s .allocationFailure)) ∧
  (∃ s : State, s.cfg.Valid ∧ exec .hxRun s = .next (refused s .allocationFailure))

/-- R175, R194: while a stepped computation is in progress every command that would write what it relies on is refused
with BUSY; no command changes the operand registers, the size or the valid flag, and only hx.step changes the buffer,
the accumulators, the level and the latches. -/
def Obligations.InterlockProtectsTheComputation : Prop :=
  ∀ (i : Instr) (s : State), s.ACT = true →
    (interlocked i = true → exec i s = .next (refused s .busy)) ∧
    (∃ t, exec i s = .next t ∧ t.N = s.N ∧ t.W = s.W ∧ t.P = s.P ∧ t.PLEN = s.PLEN ∧ t.S = s.S ∧ t.BV = s.BV ∧
      (i ≠ .hxStep → t.B = s.B ∧ t.E = s.E ∧ t.D = s.D ∧ t.LVL = s.LVL ∧ t.MU = s.MU ∧ t.L = s.L ∧ t.T = s.T ∧
        t.WV = s.WV ∧ t.R = s.R) ∧
      (i ≠ .hxStep → i ≠ .hxAbort → t.ACT = true))

/-- R47: the reading commands change no architectural state, and their response is the same in every state with the same
architectural state, so when repeated; the listed writes give the same state when repeated, and `bb.shl`, `bb.xorw` and
`hx.step` in general do not. -/
def Obligations.ReadsChangeNothingAndSomeWritesRepeat : Prop :=
  (∀ (i : Instr) (s : State), readOnly i = true →
    ∃ t r, exec i s = .next t ∧ SameArch s t ∧ t.rsps = s.rsps ++ [r] ∧
      ∀ s', SameArch s s' → ∃ t', exec i s' = .next t' ∧ SameArch s' t' ∧ t'.rsps = s'.rsps ++ [r]) ∧
  (∀ (i : Instr) (s : State), idempotent i = true → Inv s →
    ∃ t u, exec i s = .next t ∧ exec i t = .next u ∧ SameArch t u) ∧
  (∀ i ∈ [Instr.bbShl 1, Instr.bbXorw 1, Instr.hxStep],
    ∃ s t u, Inv s ∧ exec i s = .next t ∧ exec i t = .next u ∧ ¬ SameArch t u)

/-- R27, R162: which commands can change which state. -/
def Obligations.OnlyTheNamedCommandsWriteEachRegister : Prop :=
  ∀ (i : Instr) (s t : State), exec i s = .next t →
    t.cfg = s.cfg ∧
    (t.B ≠ s.B → writesBuffer i = true) ∧
    (t.S ≠ s.S ∨ t.BV ≠ s.BV → (∃ size, i = .bbCreate size) ∨ i = .bbRelease ∨ i = .hxInit ∨ i = .hxRun) ∧
    (t.N ≠ s.N → ∃ n, i = .hxSetn n) ∧
    (t.W ≠ s.W → ∃ axis width, i = .hxSetw axis width) ∧
    (t.P ≠ s.P ∨ t.PLEN ≠ s.PLEN → ∃ axis nbytes bytes, i = .hxLdp axis nbytes bytes) ∧
    (t.E ≠ s.E ∨ t.D ≠ s.D ∨ t.LVL ≠ s.LVL → i = .hxInit ∨ i = .hxStep ∨ i = .hxRun) ∧
    (t.ACT ≠ s.ACT → i = .hxInit ∨ i = .hxStep ∨ i = .hxAbort) ∧
    (t.MU ≠ s.MU ∨ t.L ≠ s.L ∨ t.T ≠ s.T ∨ t.WV ≠ s.WV ∨ t.R ≠ s.R → i = .hxStep ∨ i = .hxRun)

/-! ## The invariant (10_state.md R12, R13, R14, R19, R21, R23) -/

/-- Every step keeps the invariant, from every state that has it. The canonical form of the storage in it is the model's
own (notes/assumptions/5.md). -/
def Obligations.EveryStepKeepsTheStateInvariant : Prop :=
  ∀ s : State, Inv s → ∃ t, step s = .next t ∧ Inv t

/-- The invariant holds after reset. -/
def Obligations.ResetHasTheStateInvariant : Prop := Inv State.reset

/-! ## Bit-buffer unit (40_bitbuffer.md) -/

/-- R86: bb.create. The empty list of bytes reads zero everywhere. -/
def Obligations.CreateMakesAZeroBuffer : Prop :=
  (∀ k, Memory.read [] k = 0) ∧
  ∀ (s : State) (size : Nat), size ≤ 65535 →
    (s.ACT = true → exec (.bbCreate size) s = .next (refused s .busy)) ∧
    (s.ACT = false → s.cfg.bufBytes < max size 4 → exec (.bbCreate size) s = .next (refused s .allocationFailure)) ∧
    (s.ACT = false → max size 4 ≤ s.cfg.bufBytes →
      exec (.bbCreate size) s =
        .next (answered { s with B := [], S := BitVec.ofNat 16 (max size 4), BV := true }
          (BitVec.ofNat 64 (max size 4))))

/-- R87: bb.clear. -/
def Obligations.ClearZeroesTheBuffer : Prop :=
  ∀ s : State,
    (s.ACT = true → exec .bbClear s = .next (refused s .busy)) ∧
    (s.ACT = false → s.BV = false → exec .bbClear s = .next (refused s .noBuffer)) ∧
    (s.ACT = false → s.BV = true → ∃ B', exec .bbClear s = .next (answered { s with B := B' } 0) ∧
      ∀ k, Memory.read B' k = if k < s.S.toNat then 0 else s.B.read k)

/-- R88, R80, R81: bb.shl, bit by bit: new bit `p` is old bit `p - n`, 0 below `n`; bytes outside the buffer are not
written. -/
def Obligations.ShiftMovesEveryBitUp : Prop :=
  ∀ (s : State) (n : Nat),
    (s.ACT = true → exec (.bbShl n) s = .next (refused s .busy)) ∧
    (s.ACT = false → s.BV = false → exec (.bbShl n) s = .next (refused s .noBuffer)) ∧
    (s.ACT = false → s.BV = true → 8 ≤ n → exec (.bbShl n) s = .next (refused s .invalidArgument)) ∧
    (s.ACT = false → s.BV = true → n < 8 → ∃ B', exec (.bbShl n) s = .next (answered { s with B := B' } 0) ∧
      (∀ p, p < 8 * s.S.toNat → bufferBit B' p = (decide (n ≤ p) && bufferBit s.B (p - n))) ∧
      (∀ k, s.S.toNat ≤ k → Memory.read B' k = s.B.read k))

/-- R81: the shift is multiplication by a power of two, modulo the buffer's width; new bit `p` is old bit `p - n`. -/
def Obligations.ShiftIsMultiplicationModuloTheWidth : Prop :=
  ∀ (m : Memory) (size n : Nat), n < 8 →
    (m.shl size n).readN 0 size = (m.readN 0 size * 2 ^ n) % 2 ^ (8 * size) ∧
      ∀ p, p < 8 * size → bufferBit (m.shl size n) p = (decide (n ≤ p) && bufferBit m (p - n))

/-- R82: the wide shift is `k div 7` shifts by 7 and one by `k mod 7`; it too is multiplication, for every amount, and a
shift by the buffer's width or more leaves zero. -/
def Obligations.WideShiftIsMultiplicationModuloTheWidth : Prop :=
  ∀ (m : Memory) (size k : Nat),
    m.shlWide size k = (((fun b : Memory => b.shl size 7)^[k / 7]) m).shl size (k % 7) ∧
    (m.shlWide size k).readN 0 size = (m.readN 0 size * 2 ^ k) % 2 ^ (8 * size) ∧
      (8 * size ≤ k → ∀ j, j < size → (m.shlWide size k).read j = 0)

/-- R89, R83, R42: bb.orw, on a buffer of at least four bytes. -/
def Obligations.OrWordWritesTheHighestFourBytes : Prop :=
  ∀ (s : State) (x : Word),
    (s.ACT = true → exec (.bbOrw x) s = .next (refused s .busy)) ∧
    (s.ACT = false → s.BV = false → exec (.bbOrw x) s = .next (refused s .noBuffer)) ∧
    (s.ACT = false → s.BV = true → 4 ≤ s.S.toNat →
      ∃ B', exec (.bbOrw x) s = .next (answered { s with B := B' } 0) ∧
        (∀ t, t < 4 → Memory.read B' (s.S.toNat - 4 + t) =
          s.B.read (s.S.toNat - 4 + t) ||| x.extractLsb' (8 * t) 8) ∧
        (∀ k, k < s.S.toNat - 4 ∨ s.S.toNat ≤ k → Memory.read B' k = s.B.read k))

/-- R90, R84, R42: bb.xorw; issued twice with the same word it restores the buffer. -/
def Obligations.XorWordWritesTheLowestFourBytes : Prop :=
  (∀ (s : State) (x : Word),
    (s.ACT = true → exec (.bbXorw x) s = .next (refused s .busy)) ∧
    (s.ACT = false → s.BV = false → exec (.bbXorw x) s = .next (refused s .noBuffer)) ∧
    (s.ACT = false → s.BV = true → ∃ B', exec (.bbXorw x) s = .next (answered { s with B := B' } 0) ∧
      (∀ t, t < 4 → Memory.read B' t = s.B.read t ^^^ x.extractLsb' (8 * t) 8) ∧
      (∀ k, 4 ≤ k → Memory.read B' k = s.B.read k))) ∧
  (∀ (s : State) (x : Word), s.ACT = false → s.BV = true → s.B.wf →
    ∃ t, runCommands [.bbXorw x, .bbXorw x] s = some t ∧ SameArch s t)

/-- R91: bb.setbit. -/
def Obligations.SetBitSetsExactlyThatBit : Prop :=
  ∀ (s : State) (pos : Nat),
    (s.ACT = true → exec (.bbSetbit pos) s = .next (refused s .busy)) ∧
    (s.ACT = false → s.BV = false → exec (.bbSetbit pos) s = .next (refused s .noBuffer)) ∧
    (s.ACT = false → s.BV = true → 8 * s.S.toNat ≤ pos → exec (.bbSetbit pos) s = .next (refused s .range)) ∧
    (s.ACT = false → s.BV = true → pos < 8 * s.S.toNat →
      ∃ B', exec (.bbSetbit pos) s = .next (answered { s with B := B' } 0) ∧
        ∀ p, bufferBit B' p = (decide (p = pos) || bufferBit s.B p))

/-- R92, R43: bb.rd64 returns bytes 0 to 7, byte 0 lowest; allowed while a computation is in progress. -/
def Obligations.Read64ReturnsTheFirstEightBytes : Prop :=
  ∀ s : State,
    (s.BV = false → exec .bbRd64 s = .next (refused s .noBuffer)) ∧
    (s.BV = true → s.S.toNat < 8 → exec .bbRd64 s = .next (refused s .range)) ∧
    (s.BV = true → 8 ≤ s.S.toNat → ∃ d : Data, exec .bbRd64 s = .next (answered s d) ∧
      ∀ b, b < 64 → d.getLsbD b = bufferBit s.B b)

/-- R93: bb.rdb returns one byte, zero-extended; allowed while a computation is in progress. -/
def Obligations.ReadByteReturnsThatByte : Prop :=
  ∀ (s : State) (index : Nat),
    (s.BV = false → exec (.bbRdb index) s = .next (refused s .noBuffer)) ∧
    (s.BV = true → s.S.toNat ≤ index → exec (.bbRdb index) s = .next (refused s .range)) ∧
    (s.BV = true → index < s.S.toNat → exec (.bbRdb index) s = .next (answered s (0#56 ++ s.byte index)))

/-- R94: bb.release. -/
def Obligations.ReleaseLeavesNoBuffer : Prop :=
  ∀ s : State,
    (s.ACT = true → exec .bbRelease s = .next (refused s .busy)) ∧
    (s.ACT = false → s.BV = false → exec .bbRelease s = .next (refused s .noBuffer)) ∧
    (s.ACT = false → s.BV = true →
      exec .bbRelease s = .next (answered { s with B := [], S := 0, BV := false } 0))

/-! ## Primitive unit (41_primitives.md) -/

/-- R111, R112, R100, R101: pu.gray and pu.igray complete in every state, and each bit of their results. -/
def Obligations.GrayAndInverseGrayResults : Prop :=
  (∀ (s : State) (i : Word), ∃ g : Word, exec (.puGray i) s = .next (answered s (0#32 ++ g)) ∧
    g.getLsbD 31 = i.getLsbD 31 ∧ ∀ k, k < 31 → g.getLsbD k = (i.getLsbD k ^^ i.getLsbD (k + 1))) ∧
  (∀ (s : State) (g : Word), ∃ i : Word, exec (.puIgray g) s = .next (answered s (0#32 ++ i)) ∧
    ∀ k, k < 32 → i.getLsbD k = decide ((List.range 32).countP (fun q => decide (k ≤ q) && g.getLsbD q) % 2 = 1))

/-- R122: the two are inverse bijections on 32-bit words. -/
def Obligations.GrayAndInverseGrayAreInverse : Prop :=
  ∀ x : Word, igray (gray x) = x ∧ gray (igray x) = x

/-- R113, R114, R102, R103: pu.rotl and pu.rotr, over 32 bits. -/
def Obligations.RotationsMoveEveryBit : Prop :=
  (∀ (s : State) (amount : Nat) (v : Word),
    (32 ≤ amount → exec (.puRotl amount v) s = .next (refused s .invalidArgument)) ∧
    (amount < 32 → ∃ r : Word, exec (.puRotl amount v) s = .next (answered s (0#32 ++ r)) ∧
      ∀ k, k < 32 → r.getLsbD ((k + amount) % 32) = v.getLsbD k)) ∧
  (∀ (s : State) (amount : Nat) (v : Word),
    (32 ≤ amount → exec (.puRotr amount v) s = .next (refused s .invalidArgument)) ∧
    (amount < 32 → ∃ r : Word, exec (.puRotr amount v) s = .next (answered s (0#32 ++ r)) ∧
      ∀ k, k < 32 → r.getLsbD k = v.getLsbD ((k + amount) % 32)))

/-- R115, R116, R104, R105: pu.bitw and pu.bitb return one bit, of a word and of a point register. -/
def Obligations.BitReadsReturnThatBit : Prop :=
  (∀ (s : State) (index : Nat) (v : Word),
    (32 ≤ index → exec (.puBitw index v) s = .next (refused s .invalidArgument)) ∧
    (index < 32 → exec (.puBitw index v) s = .next (answered s (if v.getLsbD index then 1 else 0)))) ∧
  (∀ (s : State) (axis index : Nat),
    (32 ≤ axis ∨ 32 ≤ index → exec (.puBitb axis index) s = .next (refused s .invalidArgument)) ∧
    (axis < 32 → index < 32 →
      exec (.puBitb axis index) s = .next (answered s (if (s.point axis).getLsbD index then 1 else 0))))

/-- R117, R106: pu.popc returns the number of set bits. -/
def Obligations.PopcountCountsTheSetBits : Prop :=
  ∀ (s : State) (v : Word),
    exec (.puPopc v) s = .next (answered s (BitVec.ofNat 64 (((Finset.range 32).filter (fun k => v.getLsbD k)).card)))

/-- R118, R107: pu.entry, by the source's own formula: 0 for 0, else the Gray code of `2 * floor((i-1)/2)` in exact
signed arithmetic, reinterpreted modulo 2^32. -/
def Obligations.EntryIsTheGrayCodeOfTheFloor : Prop :=
  ∀ (s : State) (i : Word), ∃ e : Word, exec (.puEntry i) s = .next (answered s (0#32 ++ e)) ∧
    (i = 0 → e = 0) ∧
    (i ≠ 0 → ∀ x : Word, x = BitVec.ofInt 32 (2 * ((i.toInt - 1) / 2)) → e = x ^^^ (x >>> 1))

/-- R119, R108: pu.dir. -/
def Obligations.DirectionCountsSetBitsModuloN : Prop :=
  ∀ (s : State) (n : Nat) (i : Word),
    (n < 1 ∨ 32 < n → exec (.puDir n i) s = .next (refused s .invalidArgument)) ∧
    (1 ≤ n → n ≤ 32 → ∃ d, exec (.puDir n i) s = .next (answered s (BitVec.ofNat 64 d)) ∧ d < n ∧
      (i = 0 → d = 0) ∧
      (i ≠ 0 → i.toNat % 2 = 0 → d = bitsBelow (i - 1#32) 32 % n) ∧
      (i.toNat % 2 = 1 → d = bitsBelow i 32 % n))

/-- R120, R109: pu.xmask: bit `j` says whether axis `(j + d) mod n` is wider than the level; no bit from `n` up. -/
def Obligations.MaskSaysWhichAxesAreActive : Prop :=
  ∀ (s : State) (n level d : Nat),
    (n < 1 ∨ 32 < n ∨ n ≤ d → exec (.puXmask n level d) s = .next (refused s .invalidArgument)) ∧
    (1 ≤ n → n ≤ 32 → d < n → ∃ m : Word, exec (.puXmask n level d) s = .next (answered s (0#32 ++ m)) ∧
      ∀ j, j < 32 → m.getLsbD j = (decide (j < n) && decide (level < (s.width ((j + d) % n)).toNat)))

/-- R121, R110: pu.gcr packs the bits of `w` the mask selects below `n`, in order: the bit at position `j` goes to the
place that counts the selected positions below `j`; nothing else is set. -/
def Obligations.RankPacksTheSelectedBits : Prop :=
  ∀ (s : State) (n : Nat) (mu w : Word),
    (32 < n → exec (.puGcr n mu w) s = .next (refused s .invalidArgument)) ∧
    (n ≤ 32 → ∃ r : Word, exec (.puGcr n mu w) s = .next (answered s (0#32 ++ r)) ∧
      (∀ j, j < n → mu.getLsbD j = true → r.getLsbD (bitsBelow mu j) = w.getLsbD j) ∧
      r.toNat < 2 ^ bitsBelow mu n)

/-! ## Index engine (42_engine.md) -/

/-- R131: hx.setn stores any 8-bit value in `N` and nothing else. -/
def Obligations.SetNWritesN : Prop :=
  ∀ (s : State) (n : Nat), n ≤ 255 →
    (s.ACT = true → exec (.hxSetn n) s = .next (refused s .busy)) ∧
    (s.ACT = false → ∃ v : BitVec 8, v.toNat = n ∧ exec (.hxSetn n) s = .next (answered { s with N := v } 0))

/-- R132: hx.setw stores any 8-bit width in its register and nothing else. -/
def Obligations.SetWidthWritesOneRegister : Prop :=
  ∀ (s : State) (axis width : Nat), width ≤ 255 →
    (s.ACT = true → exec (.hxSetw axis width) s = .next (refused s .busy)) ∧
    (s.ACT = false → 32 ≤ axis → exec (.hxSetw axis width) s = .next (refused s .invalidArgument)) ∧
    (s.ACT = false → axis < 32 → ∃ W', exec (.hxSetw axis width) s = .next (answered { s with W := W' } 0) ∧
      ∀ j (hj : j < 32), (W'[j]).toNat = if j = axis then width else (s.W[j]).toNat)

/-- R133: hx.ldp stores the supplied bytes and their count in one register of each file, zeros above them, and nothing
else. -/
def Obligations.LoadPointKeepsTheSuppliedBytes : Prop :=
  ∀ (s : State) (axis nbytes : Nat) (bytes : Word),
    (s.ACT = true → exec (.hxLdp axis nbytes bytes) s = .next (refused s .busy)) ∧
    (s.ACT = false → 32 ≤ axis ∨ 4 < nbytes → exec (.hxLdp axis nbytes bytes) s = .next (refused s .invalidArgument)) ∧
    (s.ACT = false → axis < 32 → nbytes ≤ 4 →
      ∃ P' PLEN', exec (.hxLdp axis nbytes bytes) s = .next (answered { s with P := P', PLEN := PLEN' } 0) ∧
        (∀ j (hj : j < 32), (PLEN'[j]).toNat = if j = axis then nbytes else (s.PLEN[j]).toNat) ∧
        (∀ j (hj : j < 32), j ≠ axis → P'[j] = s.P[j]) ∧
        (∀ (hj : axis < 32) (b : Nat), (P'[axis]).getLsbD b = (decide (b < 8 * nbytes) && bytes.getLsbD b)))

/-- R134: the derived quantities of a configuration. -/
def Obligations.ConfigurationQuantities : Prop :=
  ∀ s : State, 1 ≤ s.N.toNat → s.N.toNat ≤ 32 →
    s.totalWidth = ∑ j ∈ Finset.range s.N.toNat, (s.width j).toNat ∧
    (∀ j, j < s.N.toNat → (s.width j).toNat ≤ s.maxWidth) ∧
    (∃ j, j < s.N.toNat ∧ (s.width j).toNat = s.maxWidth) ∧
    s.sizeNeeded = max 4 ((s.totalWidth + 7) / 8) ∧
    (ConfigOk s → 1 ≤ s.totalWidth ∧ s.totalWidth ≤ 1024 ∧ 1 ≤ s.maxWidth ∧ s.maxWidth ≤ 32 ∧ s.sizeNeeded ≤ 128)

/-- R136, R135: hx.init: its refusals, and the state it starts a computation in. -/
def Obligations.InitStartsAComputation : Prop :=
  ∀ s : State,
    (s.ACT = true → exec .hxInit s = .next (refused s .busy)) ∧
    (s.ACT = false → ¬ ConfigOk s → exec .hxInit s = .next (refused s .invalidArgument)) ∧
    (s.ACT = false → ConfigOk s → s.cfg.bufBytes < s.sizeNeeded →
      exec .hxInit s = .next (refused s .allocationFailure)) ∧
    (s.ACT = false → ConfigOk s → s.sizeNeeded ≤ s.cfg.bufBytes →
      ∃ (size : BitVec 16) (lvl : BitVec 5), size.toNat = s.sizeNeeded ∧ lvl.toNat = s.maxWidth - 1 ∧
        exec .hxInit s =
          .next (answered { s with B := [], S := size, BV := true, E := 0, D := 0, LVL := lvl, ACT := true }
            (BitVec.ofNat 64 s.sizeNeeded)))

/-- R138: the mask at every level; some axis is active at the first level and every axis at level 0. -/
def Obligations.LevelMaskAtFirstAndLastLevel : Prop :=
  ∀ s : State, ConfigOk s → s.D.toNat < s.N.toNat →
    (∀ i k, k < 32 → (s.levelMask i).getLsbD k =
      (decide (k < s.N.toNat) && decide (i < (s.width ((k + s.D.toNat) % s.N.toNat)).toNat))) ∧
    s.levelMask (s.maxWidth - 1) ≠ 0 ∧
    (∀ k, k < 32 → (s.levelMask 0).getLsbD k = decide (k < s.N.toNat))

/-- R146 with R137 and R139 to R145: hx.step executes one level, every stage from the state before it, and moves the
level on, or ends the computation after level 0. -/
def Obligations.StepExecutesOneLevel : Prop :=
  (∀ s : State, s.ACT = false → exec .hxStep s = .next (refused s .sequence)) ∧
  ∀ s : State, Inv s → s.ACT = true →
    ∃ t, exec .hxStep s = .next t ∧
      t.MU = s.levelMask s.LVL.toNat ∧
      (∀ k, k < 32 → t.L.getLsbD k = (decide (k < s.N.toNat) && (s.point k).getLsbD s.LVL.toNat)) ∧
      t.T = (t.L ^^^ s.E).rotateRight s.D.toNat ∧
      t.WV = igray t.T ∧
      t.R = gcr s.N.toNat t.MU t.WV ∧ t.R.toNat < 2 ^ popcount t.MU ∧
      t.value = ((s.value * 2 ^ popcount t.MU) % 2 ^ (8 * s.S.toNat)) ||| (t.R.toNat * 2 ^ (8 * (s.S.toNat - 4))) ∧
      (∀ k, s.S.toNat ≤ k → t.byte k = s.byte k) ∧
      t.E = s.E ^^^ (entry t.WV).rotateLeft s.D.toNat ∧
      t.D.toNat = (s.D.toNat + direction t.WV s.N.toNat + 1) % s.N.toNat ∧
      (s.LVL = 0 → t.ACT = false ∧ t.LVL = 0 ∧ t.rsps = s.rsps ++ [⟨.ok, 1⟩]) ∧
      (s.LVL ≠ 0 → t.ACT = true ∧ t.LVL.toNat = s.LVL.toNat - 1 ∧ t.rsps = s.rsps ++ [⟨.ok, 0⟩]) ∧
      t.S = s.S ∧ t.BV = s.BV ∧ t.N = s.N ∧ t.W = s.W ∧ t.P = s.P ∧ t.PLEN = s.PLEN ∧ t.cfg = s.cfg ∧
      t.inputs = s.inputs.tail

/-- R147, R135: hx.run: its refusals, and what it leaves besides the buffer's bytes, the accumulators and the latches
(those are RunEqualsInitThenSteps and BufferHoldsTheIndexAfterRun). -/
def Obligations.RunCompletesInOneCommand : Prop :=
  ∀ s : State,
    (s.ACT = true → exec .hxRun s = .next (refused s .busy)) ∧
    (s.ACT = false → ¬ ConfigOk s → exec .hxRun s = .next (refused s .invalidArgument)) ∧
    (s.ACT = false → ConfigOk s → s.cfg.bufBytes < s.sizeNeeded →
      exec .hxRun s = .next (refused s .allocationFailure)) ∧
    (s.ACT = false → ConfigOk s → s.sizeNeeded ≤ s.cfg.bufBytes →
      ∃ t, exec .hxRun s = .next t ∧ t.BV = true ∧ t.S.toNat = s.sizeNeeded ∧ t.LVL = 0 ∧ t.ACT = false ∧
        t.D.toNat < s.N.toNat ∧ (∀ k, s.sizeNeeded ≤ k → t.byte k = 0) ∧
        t.N = s.N ∧ t.W = s.W ∧ t.P = s.P ∧ t.PLEN = s.PLEN ∧ t.cfg = s.cfg ∧ t.inputs = s.inputs.tail ∧
        t.rsps = s.rsps ++ [⟨.ok, BitVec.ofNat 64 s.sizeNeeded⟩])

/-- R147, R130: hx.run leaves the state that hx.init and then `m` commands hx.step leave, register for register. -/
def Obligations.RunEqualsInitThenSteps : Prop :=
  ∀ s : State, CanStart s →
    ∃ t u, exec .hxRun s = .next t ∧ runCommands (.hxInit :: List.replicate s.maxWidth .hxStep) s = some u ∧
      SameArch t u

/-- R145: the levels run from `m - 1` down to 0, exactly `m` of them; the last step, and only it, responds done. -/
def Obligations.ExactlyMaxWidthStepsFinish : Prop :=
  ∀ (s : State) (k : Nat), CanStart s → k ≤ s.maxWidth →
    ∃ u, runCommands (.hxInit :: List.replicate k .hxStep) s = some u ∧
      u.ACT = decide (k < s.maxWidth) ∧
      u.LVL.toNat = s.maxWidth - 1 - k ∧
      (1 ≤ k → u.rsps.getLast? = some ⟨.ok, if k = s.maxWidth then 1 else 0⟩)

/-- R149: what the buffer holds after a computation: the whole concatenation `h` of the ranks in a four-byte buffer; the
low 32 bits of it in the top four bytes of a longer one, and zeros below. -/
def Obligations.BufferHoldsTheIndexAfterRun : Prop :=
  ∀ s : State, CanStart s →
    fullIndex s < 2 ^ s.totalWidth ∧
    ∃ t, exec .hxRun s = .next t ∧ t.S.toNat = s.sizeNeeded ∧
      (s.totalWidth ≤ 32 → t.S.toNat = 4 ∧ t.value = fullIndex s) ∧
      (32 < s.totalWidth → 4 < t.S.toNat ∧ t.B.readN (t.S.toNat - 4) 4 = fullIndex s % 2 ^ 32 ∧
        ∀ k, k < t.S.toNat - 4 → t.byte k = 0)

/-- R150: a computation's result depends on `N`, and on `W[j]` and `P[j]` below `N`, and on nothing else. -/
def Obligations.ComputationDependsOnItsOperandsOnly : Prop :=
  ∀ s s' : State, CanStart s → CanStart s' → s'.N = s.N →
    (∀ j, j < s.N.toNat → s'.width j = s.width j ∧ s'.point j = s.point j) →
    ∃ t t', exec .hxRun s = .next t ∧ exec .hxRun s' = .next t' ∧
      t'.S = t.S ∧ t'.BV = t.BV ∧ (∀ k, t'.byte k = t.byte k) ∧ t'.E = t.E ∧ t'.D = t.D ∧ t'.LVL = t.LVL ∧
      t'.ACT = t.ACT ∧ t'.MU = t.MU ∧ t'.L = t.L ∧ t'.T = t.T ∧ t'.WV = t.WV ∧ t'.R = t.R ∧
      t.N = s.N ∧ t.W = s.W ∧ t.P = s.P ∧ t.PLEN = s.PLEN

/-- R148: hx.abort clears `ACT` and nothing else, in every state. -/
def Obligations.AbortClearsActOnly : Prop :=
  ∀ s : State, exec .hxAbort s = .next (answered { s with ACT := false } 0)

/-! ## Register read port (43_system.md) -/

/-- R160, R161: cs.rd, in every state, at every address. -/
def Obligations.RegisterReadMap : Prop :=
  ∀ s : State,
    exec (.csRd 0x000) s =
      .next (answered s (BitVec.ofNat 64 ((if s.ACT then 2 else 0) + (if s.BV then 1 else 0)))) ∧
    exec (.csRd 0x001) s = .next (answered s (0#48 ++ s.S)) ∧
    exec (.csRd 0x002) s = .next (answered s (0#56 ++ s.N)) ∧
    exec (.csRd 0x003) s = .next (answered s (0#32 ++ s.E)) ∧
    exec (.csRd 0x004) s = .next (answered s (0#59 ++ s.D)) ∧
    exec (.csRd 0x005) s = .next (answered s (0#59 ++ s.LVL)) ∧
    exec (.csRd 0x006) s = .next (answered s (0#32 ++ s.MU)) ∧
    exec (.csRd 0x007) s = .next (answered s (0#32 ++ s.L)) ∧
    exec (.csRd 0x008) s = .next (answered s (0#32 ++ s.T)) ∧
    exec (.csRd 0x009) s = .next (answered s (0#32 ++ s.WV)) ∧
    exec (.csRd 0x00A) s = .next (answered s (0#32 ++ s.R)) ∧
    (∀ j (hj : j < 32), exec (.csRd (0x100 + j)) s = .next (answered s (0#56 ++ s.W[j]))) ∧
    (∀ j (hj : j < 32), exec (.csRd (0x200 + j)) s = .next (answered s (0#32 ++ s.P[j]))) ∧
    (∀ j (hj : j < 32), exec (.csRd (0x300 + j)) s = .next (answered s (0#61 ++ s.PLEN[j]))) ∧
    (∀ address, ¬ mapped address → exec (.csRd address) s = .next (refused s .range))

/-! ## Pseudo-commands (30_encoding.md R68) -/

/-- R68: the expansion of `bb.shln k` completes and multiplies the buffer's value by `2^k`, modulo the buffer's width. -/
def Obligations.PseudoShiftIsAWideShift : Prop :=
  ∀ (s : State) (k : Nat), s.ACT = false → s.BV = true →
    ∃ t, runCommands (Pseudo.expand (.bbShln k)) s = some t ∧
      t.value = (s.value * 2 ^ k) % 2 ^ (8 * s.S.toNat) ∧
      (∀ j, s.S.toNat ≤ j → t.byte j = s.byte j) ∧
      t.S = s.S ∧ t.BV = s.BV ∧ t.ACT = s.ACT ∧
      t.rsps = s.rsps ++ List.replicate (k / 7 + if k % 7 = 0 then 0 else 1) ⟨.ok, 0⟩

/-- R68: the expansion of `bb.setbyte index, value` gives `B[index] = value` if it was 0 and changes no other byte. -/
def Obligations.PseudoSetByteWritesAZeroByte : Prop :=
  ∀ (s : State) (index value : Nat), s.ACT = false → s.BV = true → index < s.S.toNat → value ≤ 255 →
    s.byte index = 0 →
    ∃ t, runCommands (Pseudo.expand (.bbSetbyte index value)) s = some t ∧ (t.byte index).toNat = value ∧
      ∀ k, k ≠ index → t.byte k = s.byte k

/-- R68: the expansion of `hx.point j, width, value` loads that axis, as its width and a byte sequence of `ceil8(width)`
bytes, and no other; `hx.index` is `hx.run`. -/
def Obligations.PseudoPointLoadsOneAxis : Prop :=
  (∀ (s : State) (axis width value : Nat), s.ACT = false → axis < 32 → 1 ≤ width → width ≤ 32 → value < 2 ^ width →
    ∃ t, runCommands (Pseudo.expand (.hxPoint axis width value)) s = some t ∧
      (t.width axis).toNat = width ∧ (t.point axis).toNat = value ∧ (t.plen axis).toNat = (width + 7) / 8 ∧
      (∀ j, j ≠ axis → t.width j = s.width j ∧ t.point j = s.point j ∧ t.plen j = s.plen j) ∧
      t.rsps = s.rsps ++ [⟨.ok, 0⟩, ⟨.ok, 0⟩]) ∧
  Pseudo.expand .hxIndex = [.hxRun]
end

