-- ==== Sys2Proof/Laws/State.lean ====
section
/-! SUPPORT. One lemma for each field of State after each update, true by unfolding the update, so that no later proof
unfolds a record update; and the register reads after the updates that leave a register file alone. -/

namespace Sys2Proof.Machine

variable (s : State)

@[simp] theorem State.respond_eq_answer (data : Data) : s.respond data = s.answer .ok data := rfl
@[simp] theorem State.raise_eq_answer (status : Status) : s.raise status = s.answer status 0 := rfl

/-! ### answer -/

@[simp] theorem State.answer_cfg (status : Status) (data : Data) : (s.answer status data).cfg = s.cfg := rfl
@[simp] theorem State.answer_B (status : Status) (data : Data) : (s.answer status data).B = s.B := rfl
@[simp] theorem State.answer_S (status : Status) (data : Data) : (s.answer status data).S = s.S := rfl
@[simp] theorem State.answer_BV (status : Status) (data : Data) : (s.answer status data).BV = s.BV := rfl
@[simp] theorem State.answer_N (status : Status) (data : Data) : (s.answer status data).N = s.N := rfl
@[simp] theorem State.answer_W (status : Status) (data : Data) : (s.answer status data).W = s.W := rfl
@[simp] theorem State.answer_P (status : Status) (data : Data) : (s.answer status data).P = s.P := rfl
@[simp] theorem State.answer_PLEN (status : Status) (data : Data) : (s.answer status data).PLEN = s.PLEN := rfl
@[simp] theorem State.answer_E (status : Status) (data : Data) : (s.answer status data).E = s.E := rfl
@[simp] theorem State.answer_D (status : Status) (data : Data) : (s.answer status data).D = s.D := rfl
@[simp] theorem State.answer_LVL (status : Status) (data : Data) : (s.answer status data).LVL = s.LVL := rfl
@[simp] theorem State.answer_ACT (status : Status) (data : Data) : (s.answer status data).ACT = s.ACT := rfl
@[simp] theorem State.answer_MU (status : Status) (data : Data) : (s.answer status data).MU = s.MU := rfl
@[simp] theorem State.answer_L (status : Status) (data : Data) : (s.answer status data).L = s.L := rfl
@[simp] theorem State.answer_T (status : Status) (data : Data) : (s.answer status data).T = s.T := rfl
@[simp] theorem State.answer_WV (status : Status) (data : Data) : (s.answer status data).WV = s.WV := rfl
@[simp] theorem State.answer_R (status : Status) (data : Data) : (s.answer status data).R = s.R := rfl
@[simp] theorem State.answer_inputs (status : Status) (data : Data) : (s.answer status data).inputs = s.inputs.tail := rfl
@[simp] theorem State.answer_rsps (status : Status) (data : Data) : (s.answer status data).rsps = s.rsps ++ [⟨status, data⟩] := rfl

/-! ### bufShl -/

@[simp] theorem State.bufShl_cfg (n : Nat) : (s.bufShl n).cfg = s.cfg := rfl
@[simp] theorem State.bufShl_B (n : Nat) : (s.bufShl n).B = s.B.shl s.S.toNat n := rfl
@[simp] theorem State.bufShl_S (n : Nat) : (s.bufShl n).S = s.S := rfl
@[simp] theorem State.bufShl_BV (n : Nat) : (s.bufShl n).BV = s.BV := rfl
@[simp] theorem State.bufShl_N (n : Nat) : (s.bufShl n).N = s.N := rfl
@[simp] theorem State.bufShl_W (n : Nat) : (s.bufShl n).W = s.W := rfl
@[simp] theorem State.bufShl_P (n : Nat) : (s.bufShl n).P = s.P := rfl
@[simp] theorem State.bufShl_PLEN (n : Nat) : (s.bufShl n).PLEN = s.PLEN := rfl
@[simp] theorem State.bufShl_E (n : Nat) : (s.bufShl n).E = s.E := rfl
@[simp] theorem State.bufShl_D (n : Nat) : (s.bufShl n).D = s.D := rfl
@[simp] theorem State.bufShl_LVL (n : Nat) : (s.bufShl n).LVL = s.LVL := rfl
@[simp] theorem State.bufShl_ACT (n : Nat) : (s.bufShl n).ACT = s.ACT := rfl
@[simp] theorem State.bufShl_MU (n : Nat) : (s.bufShl n).MU = s.MU := rfl
@[simp] theorem State.bufShl_L (n : Nat) : (s.bufShl n).L = s.L := rfl
@[simp] theorem State.bufShl_T (n : Nat) : (s.bufShl n).T = s.T := rfl
@[simp] theorem State.bufShl_WV (n : Nat) : (s.bufShl n).WV = s.WV := rfl
@[simp] theorem State.bufShl_R (n : Nat) : (s.bufShl n).R = s.R := rfl
@[simp] theorem State.bufShl_inputs (n : Nat) : (s.bufShl n).inputs = s.inputs := rfl
@[simp] theorem State.bufShl_rsps (n : Nat) : (s.bufShl n).rsps = s.rsps := rfl

/-! ### bufShlWide -/

@[simp] theorem State.bufShlWide_cfg (k : Nat) : (s.bufShlWide k).cfg = s.cfg := rfl
@[simp] theorem State.bufShlWide_B (k : Nat) : (s.bufShlWide k).B = s.B.shlWide s.S.toNat k := rfl
@[simp] theorem State.bufShlWide_S (k : Nat) : (s.bufShlWide k).S = s.S := rfl
@[simp] theorem State.bufShlWide_BV (k : Nat) : (s.bufShlWide k).BV = s.BV := rfl
@[simp] theorem State.bufShlWide_N (k : Nat) : (s.bufShlWide k).N = s.N := rfl
@[simp] theorem State.bufShlWide_W (k : Nat) : (s.bufShlWide k).W = s.W := rfl
@[simp] theorem State.bufShlWide_P (k : Nat) : (s.bufShlWide k).P = s.P := rfl
@[simp] theorem State.bufShlWide_PLEN (k : Nat) : (s.bufShlWide k).PLEN = s.PLEN := rfl
@[simp] theorem State.bufShlWide_E (k : Nat) : (s.bufShlWide k).E = s.E := rfl
@[simp] theorem State.bufShlWide_D (k : Nat) : (s.bufShlWide k).D = s.D := rfl
@[simp] theorem State.bufShlWide_LVL (k : Nat) : (s.bufShlWide k).LVL = s.LVL := rfl
@[simp] theorem State.bufShlWide_ACT (k : Nat) : (s.bufShlWide k).ACT = s.ACT := rfl
@[simp] theorem State.bufShlWide_MU (k : Nat) : (s.bufShlWide k).MU = s.MU := rfl
@[simp] theorem State.bufShlWide_L (k : Nat) : (s.bufShlWide k).L = s.L := rfl
@[simp] theorem State.bufShlWide_T (k : Nat) : (s.bufShlWide k).T = s.T := rfl
@[simp] theorem State.bufShlWide_WV (k : Nat) : (s.bufShlWide k).WV = s.WV := rfl
@[simp] theorem State.bufShlWide_R (k : Nat) : (s.bufShlWide k).R = s.R := rfl
@[simp] theorem State.bufShlWide_inputs (k : Nat) : (s.bufShlWide k).inputs = s.inputs := rfl
@[simp] theorem State.bufShlWide_rsps (k : Nat) : (s.bufShlWide k).rsps = s.rsps := rfl

/-! ### bufOr32 -/

@[simp] theorem State.bufOr32_cfg (x : Word) : (s.bufOr32 x).cfg = s.cfg := rfl
@[simp] theorem State.bufOr32_B (x : Word) : (s.bufOr32 x).B = s.B.or32 s.S.toNat x := rfl
@[simp] theorem State.bufOr32_S (x : Word) : (s.bufOr32 x).S = s.S := rfl
@[simp] theorem State.bufOr32_BV (x : Word) : (s.bufOr32 x).BV = s.BV := rfl
@[simp] theorem State.bufOr32_N (x : Word) : (s.bufOr32 x).N = s.N := rfl
@[simp] theorem State.bufOr32_W (x : Word) : (s.bufOr32 x).W = s.W := rfl
@[simp] theorem State.bufOr32_P (x : Word) : (s.bufOr32 x).P = s.P := rfl
@[simp] theorem State.bufOr32_PLEN (x : Word) : (s.bufOr32 x).PLEN = s.PLEN := rfl
@[simp] theorem State.bufOr32_E (x : Word) : (s.bufOr32 x).E = s.E := rfl
@[simp] theorem State.bufOr32_D (x : Word) : (s.bufOr32 x).D = s.D := rfl
@[simp] theorem State.bufOr32_LVL (x : Word) : (s.bufOr32 x).LVL = s.LVL := rfl
@[simp] theorem State.bufOr32_ACT (x : Word) : (s.bufOr32 x).ACT = s.ACT := rfl
@[simp] theorem State.bufOr32_MU (x : Word) : (s.bufOr32 x).MU = s.MU := rfl
@[simp] theorem State.bufOr32_L (x : Word) : (s.bufOr32 x).L = s.L := rfl
@[simp] theorem State.bufOr32_T (x : Word) : (s.bufOr32 x).T = s.T := rfl
@[simp] theorem State.bufOr32_WV (x : Word) : (s.bufOr32 x).WV = s.WV := rfl
@[simp] theorem State.bufOr32_R (x : Word) : (s.bufOr32 x).R = s.R := rfl
@[simp] theorem State.bufOr32_inputs (x : Word) : (s.bufOr32 x).inputs = s.inputs := rfl
@[simp] theorem State.bufOr32_rsps (x : Word) : (s.bufOr32 x).rsps = s.rsps := rfl

/-! ### bufXor32 -/

@[simp] theorem State.bufXor32_cfg (x : Word) : (s.bufXor32 x).cfg = s.cfg := rfl
@[simp] theorem State.bufXor32_B (x : Word) : (s.bufXor32 x).B = s.B.xor32 x := rfl
@[simp] theorem State.bufXor32_S (x : Word) : (s.bufXor32 x).S = s.S := rfl
@[simp] theorem State.bufXor32_BV (x : Word) : (s.bufXor32 x).BV = s.BV := rfl
@[simp] theorem State.bufXor32_N (x : Word) : (s.bufXor32 x).N = s.N := rfl
@[simp] theorem State.bufXor32_W (x : Word) : (s.bufXor32 x).W = s.W := rfl
@[simp] theorem State.bufXor32_P (x : Word) : (s.bufXor32 x).P = s.P := rfl
@[simp] theorem State.bufXor32_PLEN (x : Word) : (s.bufXor32 x).PLEN = s.PLEN := rfl
@[simp] theorem State.bufXor32_E (x : Word) : (s.bufXor32 x).E = s.E := rfl
@[simp] theorem State.bufXor32_D (x : Word) : (s.bufXor32 x).D = s.D := rfl
@[simp] theorem State.bufXor32_LVL (x : Word) : (s.bufXor32 x).LVL = s.LVL := rfl
@[simp] theorem State.bufXor32_ACT (x : Word) : (s.bufXor32 x).ACT = s.ACT := rfl
@[simp] theorem State.bufXor32_MU (x : Word) : (s.bufXor32 x).MU = s.MU := rfl
@[simp] theorem State.bufXor32_L (x : Word) : (s.bufXor32 x).L = s.L := rfl
@[simp] theorem State.bufXor32_T (x : Word) : (s.bufXor32 x).T = s.T := rfl
@[simp] theorem State.bufXor32_WV (x : Word) : (s.bufXor32 x).WV = s.WV := rfl
@[simp] theorem State.bufXor32_R (x : Word) : (s.bufXor32 x).R = s.R := rfl
@[simp] theorem State.bufXor32_inputs (x : Word) : (s.bufXor32 x).inputs = s.inputs := rfl
@[simp] theorem State.bufXor32_rsps (x : Word) : (s.bufXor32 x).rsps = s.rsps := rfl

/-! ### bufClear -/

@[simp] theorem State.bufClear_cfg : (s.bufClear).cfg = s.cfg := rfl
@[simp] theorem State.bufClear_B : (s.bufClear).B = s.B.clear s.S.toNat := rfl
@[simp] theorem State.bufClear_S : (s.bufClear).S = s.S := rfl
@[simp] theorem State.bufClear_BV : (s.bufClear).BV = s.BV := rfl
@[simp] theorem State.bufClear_N : (s.bufClear).N = s.N := rfl
@[simp] theorem State.bufClear_W : (s.bufClear).W = s.W := rfl
@[simp] theorem State.bufClear_P : (s.bufClear).P = s.P := rfl
@[simp] theorem State.bufClear_PLEN : (s.bufClear).PLEN = s.PLEN := rfl
@[simp] theorem State.bufClear_E : (s.bufClear).E = s.E := rfl
@[simp] theorem State.bufClear_D : (s.bufClear).D = s.D := rfl
@[simp] theorem State.bufClear_LVL : (s.bufClear).LVL = s.LVL := rfl
@[simp] theorem State.bufClear_ACT : (s.bufClear).ACT = s.ACT := rfl
@[simp] theorem State.bufClear_MU : (s.bufClear).MU = s.MU := rfl
@[simp] theorem State.bufClear_L : (s.bufClear).L = s.L := rfl
@[simp] theorem State.bufClear_T : (s.bufClear).T = s.T := rfl
@[simp] theorem State.bufClear_WV : (s.bufClear).WV = s.WV := rfl
@[simp] theorem State.bufClear_R : (s.bufClear).R = s.R := rfl
@[simp] theorem State.bufClear_inputs : (s.bufClear).inputs = s.inputs := rfl
@[simp] theorem State.bufClear_rsps : (s.bufClear).rsps = s.rsps := rfl

/-! ### bufSetBit -/

@[simp] theorem State.bufSetBit_cfg (pos : Nat) : (s.bufSetBit pos).cfg = s.cfg := rfl
@[simp] theorem State.bufSetBit_B (pos : Nat) : (s.bufSetBit pos).B = s.B.setBit pos := rfl
@[simp] theorem State.bufSetBit_S (pos : Nat) : (s.bufSetBit pos).S = s.S := rfl
@[simp] theorem State.bufSetBit_BV (pos : Nat) : (s.bufSetBit pos).BV = s.BV := rfl
@[simp] theorem State.bufSetBit_N (pos : Nat) : (s.bufSetBit pos).N = s.N := rfl
@[simp] theorem State.bufSetBit_W (pos : Nat) : (s.bufSetBit pos).W = s.W := rfl
@[simp] theorem State.bufSetBit_P (pos : Nat) : (s.bufSetBit pos).P = s.P := rfl
@[simp] theorem State.bufSetBit_PLEN (pos : Nat) : (s.bufSetBit pos).PLEN = s.PLEN := rfl
@[simp] theorem State.bufSetBit_E (pos : Nat) : (s.bufSetBit pos).E = s.E := rfl
@[simp] theorem State.bufSetBit_D (pos : Nat) : (s.bufSetBit pos).D = s.D := rfl
@[simp] theorem State.bufSetBit_LVL (pos : Nat) : (s.bufSetBit pos).LVL = s.LVL := rfl
@[simp] theorem State.bufSetBit_ACT (pos : Nat) : (s.bufSetBit pos).ACT = s.ACT := rfl
@[simp] theorem State.bufSetBit_MU (pos : Nat) : (s.bufSetBit pos).MU = s.MU := rfl
@[simp] theorem State.bufSetBit_L (pos : Nat) : (s.bufSetBit pos).L = s.L := rfl
@[simp] theorem State.bufSetBit_T (pos : Nat) : (s.bufSetBit pos).T = s.T := rfl
@[simp] theorem State.bufSetBit_WV (pos : Nat) : (s.bufSetBit pos).WV = s.WV := rfl
@[simp] theorem State.bufSetBit_R (pos : Nat) : (s.bufSetBit pos).R = s.R := rfl
@[simp] theorem State.bufSetBit_inputs (pos : Nat) : (s.bufSetBit pos).inputs = s.inputs := rfl
@[simp] theorem State.bufSetBit_rsps (pos : Nat) : (s.bufSetBit pos).rsps = s.rsps := rfl

/-! ### bufAlloc -/

@[simp] theorem State.bufAlloc_cfg (size : Nat) : (s.bufAlloc size).cfg = s.cfg := rfl
@[simp] theorem State.bufAlloc_B (size : Nat) : (s.bufAlloc size).B = [] := rfl
@[simp] theorem State.bufAlloc_S (size : Nat) : (s.bufAlloc size).S = BitVec.ofNat 16 size := rfl
@[simp] theorem State.bufAlloc_BV (size : Nat) : (s.bufAlloc size).BV = true := rfl
@[simp] theorem State.bufAlloc_N (size : Nat) : (s.bufAlloc size).N = s.N := rfl
@[simp] theorem State.bufAlloc_W (size : Nat) : (s.bufAlloc size).W = s.W := rfl
@[simp] theorem State.bufAlloc_P (size : Nat) : (s.bufAlloc size).P = s.P := rfl
@[simp] theorem State.bufAlloc_PLEN (size : Nat) : (s.bufAlloc size).PLEN = s.PLEN := rfl
@[simp] theorem State.bufAlloc_E (size : Nat) : (s.bufAlloc size).E = s.E := rfl
@[simp] theorem State.bufAlloc_D (size : Nat) : (s.bufAlloc size).D = s.D := rfl
@[simp] theorem State.bufAlloc_LVL (size : Nat) : (s.bufAlloc size).LVL = s.LVL := rfl
@[simp] theorem State.bufAlloc_ACT (size : Nat) : (s.bufAlloc size).ACT = s.ACT := rfl
@[simp] theorem State.bufAlloc_MU (size : Nat) : (s.bufAlloc size).MU = s.MU := rfl
@[simp] theorem State.bufAlloc_L (size : Nat) : (s.bufAlloc size).L = s.L := rfl
@[simp] theorem State.bufAlloc_T (size : Nat) : (s.bufAlloc size).T = s.T := rfl
@[simp] theorem State.bufAlloc_WV (size : Nat) : (s.bufAlloc size).WV = s.WV := rfl
@[simp] theorem State.bufAlloc_R (size : Nat) : (s.bufAlloc size).R = s.R := rfl
@[simp] theorem State.bufAlloc_inputs (size : Nat) : (s.bufAlloc size).inputs = s.inputs := rfl
@[simp] theorem State.bufAlloc_rsps (size : Nat) : (s.bufAlloc size).rsps = s.rsps := rfl

/-! ### bufRelease -/

@[simp] theorem State.bufRelease_cfg : (s.bufRelease).cfg = s.cfg := rfl
@[simp] theorem State.bufRelease_B : (s.bufRelease).B = [] := rfl
@[simp] theorem State.bufRelease_S : (s.bufRelease).S = 0 := rfl
@[simp] theorem State.bufRelease_BV : (s.bufRelease).BV = false := rfl
@[simp] theorem State.bufRelease_N : (s.bufRelease).N = s.N := rfl
@[simp] theorem State.bufRelease_W : (s.bufRelease).W = s.W := rfl
@[simp] theorem State.bufRelease_P : (s.bufRelease).P = s.P := rfl
@[simp] theorem State.bufRelease_PLEN : (s.bufRelease).PLEN = s.PLEN := rfl
@[simp] theorem State.bufRelease_E : (s.bufRelease).E = s.E := rfl
@[simp] theorem State.bufRelease_D : (s.bufRelease).D = s.D := rfl
@[simp] theorem State.bufRelease_LVL : (s.bufRelease).LVL = s.LVL := rfl
@[simp] theorem State.bufRelease_ACT : (s.bufRelease).ACT = s.ACT := rfl
@[simp] theorem State.bufRelease_MU : (s.bufRelease).MU = s.MU := rfl
@[simp] theorem State.bufRelease_L : (s.bufRelease).L = s.L := rfl
@[simp] theorem State.bufRelease_T : (s.bufRelease).T = s.T := rfl
@[simp] theorem State.bufRelease_WV : (s.bufRelease).WV = s.WV := rfl
@[simp] theorem State.bufRelease_R : (s.bufRelease).R = s.R := rfl
@[simp] theorem State.bufRelease_inputs : (s.bufRelease).inputs = s.inputs := rfl
@[simp] theorem State.bufRelease_rsps : (s.bufRelease).rsps = s.rsps := rfl

/-! ### setWidth -/

@[simp] theorem State.setWidth_cfg (j : Nat) (v : BitVec 8) : (s.setWidth j v).cfg = s.cfg := rfl
@[simp] theorem State.setWidth_B (j : Nat) (v : BitVec 8) : (s.setWidth j v).B = s.B := rfl
@[simp] theorem State.setWidth_S (j : Nat) (v : BitVec 8) : (s.setWidth j v).S = s.S := rfl
@[simp] theorem State.setWidth_BV (j : Nat) (v : BitVec 8) : (s.setWidth j v).BV = s.BV := rfl
@[simp] theorem State.setWidth_N (j : Nat) (v : BitVec 8) : (s.setWidth j v).N = s.N := rfl
@[simp] theorem State.setWidth_W (j : Nat) (v : BitVec 8) : (s.setWidth j v).W = s.W.setIfInBounds j v := rfl
@[simp] theorem State.setWidth_P (j : Nat) (v : BitVec 8) : (s.setWidth j v).P = s.P := rfl
@[simp] theorem State.setWidth_PLEN (j : Nat) (v : BitVec 8) : (s.setWidth j v).PLEN = s.PLEN := rfl
@[simp] theorem State.setWidth_E (j : Nat) (v : BitVec 8) : (s.setWidth j v).E = s.E := rfl
@[simp] theorem State.setWidth_D (j : Nat) (v : BitVec 8) : (s.setWidth j v).D = s.D := rfl
@[simp] theorem State.setWidth_LVL (j : Nat) (v : BitVec 8) : (s.setWidth j v).LVL = s.LVL := rfl
@[simp] theorem State.setWidth_ACT (j : Nat) (v : BitVec 8) : (s.setWidth j v).ACT = s.ACT := rfl
@[simp] theorem State.setWidth_MU (j : Nat) (v : BitVec 8) : (s.setWidth j v).MU = s.MU := rfl
@[simp] theorem State.setWidth_L (j : Nat) (v : BitVec 8) : (s.setWidth j v).L = s.L := rfl
@[simp] theorem State.setWidth_T (j : Nat) (v : BitVec 8) : (s.setWidth j v).T = s.T := rfl
@[simp] theorem State.setWidth_WV (j : Nat) (v : BitVec 8) : (s.setWidth j v).WV = s.WV := rfl
@[simp] theorem State.setWidth_R (j : Nat) (v : BitVec 8) : (s.setWidth j v).R = s.R := rfl
@[simp] theorem State.setWidth_inputs (j : Nat) (v : BitVec 8) : (s.setWidth j v).inputs = s.inputs := rfl
@[simp] theorem State.setWidth_rsps (j : Nat) (v : BitVec 8) : (s.setWidth j v).rsps = s.rsps := rfl

/-! ### setPoint -/

@[simp] theorem State.setPoint_cfg (j : Nat) (v : Word) : (s.setPoint j v).cfg = s.cfg := rfl
@[simp] theorem State.setPoint_B (j : Nat) (v : Word) : (s.setPoint j v).B = s.B := rfl
@[simp] theorem State.setPoint_S (j : Nat) (v : Word) : (s.setPoint j v).S = s.S := rfl
@[simp] theorem State.setPoint_BV (j : Nat) (v : Word) : (s.setPoint j v).BV = s.BV := rfl
@[simp] theorem State.setPoint_N (j : Nat) (v : Word) : (s.setPoint j v).N = s.N := rfl
@[simp] theorem State.setPoint_W (j : Nat) (v : Word) : (s.setPoint j v).W = s.W := rfl
@[simp] theorem State.setPoint_P (j : Nat) (v : Word) : (s.setPoint j v).P = s.P.setIfInBounds j v := rfl
@[simp] theorem State.setPoint_PLEN (j : Nat) (v : Word) : (s.setPoint j v).PLEN = s.PLEN := rfl
@[simp] theorem State.setPoint_E (j : Nat) (v : Word) : (s.setPoint j v).E = s.E := rfl
@[simp] theorem State.setPoint_D (j : Nat) (v : Word) : (s.setPoint j v).D = s.D := rfl
@[simp] theorem State.setPoint_LVL (j : Nat) (v : Word) : (s.setPoint j v).LVL = s.LVL := rfl
@[simp] theorem State.setPoint_ACT (j : Nat) (v : Word) : (s.setPoint j v).ACT = s.ACT := rfl
@[simp] theorem State.setPoint_MU (j : Nat) (v : Word) : (s.setPoint j v).MU = s.MU := rfl
@[simp] theorem State.setPoint_L (j : Nat) (v : Word) : (s.setPoint j v).L = s.L := rfl
@[simp] theorem State.setPoint_T (j : Nat) (v : Word) : (s.setPoint j v).T = s.T := rfl
@[simp] theorem State.setPoint_WV (j : Nat) (v : Word) : (s.setPoint j v).WV = s.WV := rfl
@[simp] theorem State.setPoint_R (j : Nat) (v : Word) : (s.setPoint j v).R = s.R := rfl
@[simp] theorem State.setPoint_inputs (j : Nat) (v : Word) : (s.setPoint j v).inputs = s.inputs := rfl
@[simp] theorem State.setPoint_rsps (j : Nat) (v : Word) : (s.setPoint j v).rsps = s.rsps := rfl

/-! ### setPlen -/

@[simp] theorem State.setPlen_cfg (j : Nat) (v : BitVec 3) : (s.setPlen j v).cfg = s.cfg := rfl
@[simp] theorem State.setPlen_B (j : Nat) (v : BitVec 3) : (s.setPlen j v).B = s.B := rfl
@[simp] theorem State.setPlen_S (j : Nat) (v : BitVec 3) : (s.setPlen j v).S = s.S := rfl
@[simp] theorem State.setPlen_BV (j : Nat) (v : BitVec 3) : (s.setPlen j v).BV = s.BV := rfl
@[simp] theorem State.setPlen_N (j : Nat) (v : BitVec 3) : (s.setPlen j v).N = s.N := rfl
@[simp] theorem State.setPlen_W (j : Nat) (v : BitVec 3) : (s.setPlen j v).W = s.W := rfl
@[simp] theorem State.setPlen_P (j : Nat) (v : BitVec 3) : (s.setPlen j v).P = s.P := rfl
@[simp] theorem State.setPlen_PLEN (j : Nat) (v : BitVec 3) : (s.setPlen j v).PLEN = s.PLEN.setIfInBounds j v := rfl
@[simp] theorem State.setPlen_E (j : Nat) (v : BitVec 3) : (s.setPlen j v).E = s.E := rfl
@[simp] theorem State.setPlen_D (j : Nat) (v : BitVec 3) : (s.setPlen j v).D = s.D := rfl
@[simp] theorem State.setPlen_LVL (j : Nat) (v : BitVec 3) : (s.setPlen j v).LVL = s.LVL := rfl
@[simp] theorem State.setPlen_ACT (j : Nat) (v : BitVec 3) : (s.setPlen j v).ACT = s.ACT := rfl
@[simp] theorem State.setPlen_MU (j : Nat) (v : BitVec 3) : (s.setPlen j v).MU = s.MU := rfl
@[simp] theorem State.setPlen_L (j : Nat) (v : BitVec 3) : (s.setPlen j v).L = s.L := rfl
@[simp] theorem State.setPlen_T (j : Nat) (v : BitVec 3) : (s.setPlen j v).T = s.T := rfl
@[simp] theorem State.setPlen_WV (j : Nat) (v : BitVec 3) : (s.setPlen j v).WV = s.WV := rfl
@[simp] theorem State.setPlen_R (j : Nat) (v : BitVec 3) : (s.setPlen j v).R = s.R := rfl
@[simp] theorem State.setPlen_inputs (j : Nat) (v : BitVec 3) : (s.setPlen j v).inputs = s.inputs := rfl
@[simp] theorem State.setPlen_rsps (j : Nat) (v : BitVec 3) : (s.setPlen j v).rsps = s.rsps := rfl

/-! ### level -/

@[simp] theorem State.level_cfg (i : Nat) : (s.level i).cfg = s.cfg := rfl
@[simp] theorem State.level_B (i : Nat) : (s.level i).B = s.levelAppend i := rfl
@[simp] theorem State.level_S (i : Nat) : (s.level i).S = s.S := rfl
@[simp] theorem State.level_BV (i : Nat) : (s.level i).BV = s.BV := rfl
@[simp] theorem State.level_N (i : Nat) : (s.level i).N = s.N := rfl
@[simp] theorem State.level_W (i : Nat) : (s.level i).W = s.W := rfl
@[simp] theorem State.level_P (i : Nat) : (s.level i).P = s.P := rfl
@[simp] theorem State.level_PLEN (i : Nat) : (s.level i).PLEN = s.PLEN := rfl
@[simp] theorem State.level_E (i : Nat) : (s.level i).E = s.levelE i := rfl
@[simp] theorem State.level_D (i : Nat) : (s.level i).D = s.levelD i := rfl
@[simp] theorem State.level_LVL (i : Nat) : (s.level i).LVL = s.LVL := rfl
@[simp] theorem State.level_ACT (i : Nat) : (s.level i).ACT = s.ACT := rfl
@[simp] theorem State.level_MU (i : Nat) : (s.level i).MU = s.levelMask i := rfl
@[simp] theorem State.level_L (i : Nat) : (s.level i).L = s.levelCross i := rfl
@[simp] theorem State.level_T (i : Nat) : (s.level i).T = s.levelTransform i := rfl
@[simp] theorem State.level_WV (i : Nat) : (s.level i).WV = s.levelWord i := rfl
@[simp] theorem State.level_R (i : Nat) : (s.level i).R = s.levelRank i := rfl
@[simp] theorem State.level_inputs (i : Nat) : (s.level i).inputs = s.inputs := rfl
@[simp] theorem State.level_rsps (i : Nat) : (s.level i).rsps = s.rsps := rfl

/-! ### startComputation -/

@[simp] theorem State.startComputation_cfg : (s.startComputation).cfg = s.cfg := rfl
@[simp] theorem State.startComputation_B : (s.startComputation).B = [] := rfl
@[simp] theorem State.startComputation_S : (s.startComputation).S = BitVec.ofNat 16 s.sizeNeeded := rfl
@[simp] theorem State.startComputation_BV : (s.startComputation).BV = true := rfl
@[simp] theorem State.startComputation_N : (s.startComputation).N = s.N := rfl
@[simp] theorem State.startComputation_W : (s.startComputation).W = s.W := rfl
@[simp] theorem State.startComputation_P : (s.startComputation).P = s.P := rfl
@[simp] theorem State.startComputation_PLEN : (s.startComputation).PLEN = s.PLEN := rfl
@[simp] theorem State.startComputation_E : (s.startComputation).E = 0 := rfl
@[simp] theorem State.startComputation_D : (s.startComputation).D = 0 := rfl
@[simp] theorem State.startComputation_LVL : (s.startComputation).LVL = BitVec.ofNat 5 (s.maxWidth - 1) := rfl
@[simp] theorem State.startComputation_ACT : (s.startComputation).ACT = true := rfl
@[simp] theorem State.startComputation_MU : (s.startComputation).MU = s.MU := rfl
@[simp] theorem State.startComputation_L : (s.startComputation).L = s.L := rfl
@[simp] theorem State.startComputation_T : (s.startComputation).T = s.T := rfl
@[simp] theorem State.startComputation_WV : (s.startComputation).WV = s.WV := rfl
@[simp] theorem State.startComputation_R : (s.startComputation).R = s.R := rfl
@[simp] theorem State.startComputation_inputs : (s.startComputation).inputs = s.inputs := rfl
@[simp] theorem State.startComputation_rsps : (s.startComputation).rsps = s.rsps := rfl

/-! ### abandon -/

@[simp] theorem State.abandon_cfg : (s.abandon).cfg = s.cfg := rfl
@[simp] theorem State.abandon_B : (s.abandon).B = s.B := rfl
@[simp] theorem State.abandon_S : (s.abandon).S = s.S := rfl
@[simp] theorem State.abandon_BV : (s.abandon).BV = s.BV := rfl
@[simp] theorem State.abandon_N : (s.abandon).N = s.N := rfl
@[simp] theorem State.abandon_W : (s.abandon).W = s.W := rfl
@[simp] theorem State.abandon_P : (s.abandon).P = s.P := rfl
@[simp] theorem State.abandon_PLEN : (s.abandon).PLEN = s.PLEN := rfl
@[simp] theorem State.abandon_E : (s.abandon).E = s.E := rfl
@[simp] theorem State.abandon_D : (s.abandon).D = s.D := rfl
@[simp] theorem State.abandon_LVL : (s.abandon).LVL = s.LVL := rfl
@[simp] theorem State.abandon_ACT : (s.abandon).ACT = false := rfl
@[simp] theorem State.abandon_MU : (s.abandon).MU = s.MU := rfl
@[simp] theorem State.abandon_L : (s.abandon).L = s.L := rfl
@[simp] theorem State.abandon_T : (s.abandon).T = s.T := rfl
@[simp] theorem State.abandon_WV : (s.abandon).WV = s.WV := rfl
@[simp] theorem State.abandon_R : (s.abandon).R = s.R := rfl
@[simp] theorem State.abandon_inputs : (s.abandon).inputs = s.inputs := rfl
@[simp] theorem State.abandon_rsps : (s.abandon).rsps = s.rsps := rfl

/-! ### takeReset -/

@[simp] theorem State.takeReset_cfg : (s.takeReset).cfg = s.cfg := rfl
@[simp] theorem State.takeReset_B : (s.takeReset).B = [] := rfl
@[simp] theorem State.takeReset_S : (s.takeReset).S = 0 := rfl
@[simp] theorem State.takeReset_BV : (s.takeReset).BV = false := rfl
@[simp] theorem State.takeReset_N : (s.takeReset).N = 0 := rfl
@[simp] theorem State.takeReset_W : (s.takeReset).W = Vector.replicate 32 0 := rfl
@[simp] theorem State.takeReset_P : (s.takeReset).P = Vector.replicate 32 0 := rfl
@[simp] theorem State.takeReset_PLEN : (s.takeReset).PLEN = Vector.replicate 32 0 := rfl
@[simp] theorem State.takeReset_E : (s.takeReset).E = 0 := rfl
@[simp] theorem State.takeReset_D : (s.takeReset).D = 0 := rfl
@[simp] theorem State.takeReset_LVL : (s.takeReset).LVL = 0 := rfl
@[simp] theorem State.takeReset_ACT : (s.takeReset).ACT = false := rfl
@[simp] theorem State.takeReset_MU : (s.takeReset).MU = 0 := rfl
@[simp] theorem State.takeReset_L : (s.takeReset).L = 0 := rfl
@[simp] theorem State.takeReset_T : (s.takeReset).T = 0 := rfl
@[simp] theorem State.takeReset_WV : (s.takeReset).WV = 0 := rfl
@[simp] theorem State.takeReset_R : (s.takeReset).R = 0 := rfl
@[simp] theorem State.takeReset_inputs : (s.takeReset).inputs = s.inputs.tail := rfl
@[simp] theorem State.takeReset_rsps : (s.takeReset).rsps = s.rsps := rfl

/-! ### offer -/

@[simp] theorem State.offer_cfg (p : Packet) : (s.offer p).cfg = s.cfg := rfl
@[simp] theorem State.offer_B (p : Packet) : (s.offer p).B = s.B := rfl
@[simp] theorem State.offer_S (p : Packet) : (s.offer p).S = s.S := rfl
@[simp] theorem State.offer_BV (p : Packet) : (s.offer p).BV = s.BV := rfl
@[simp] theorem State.offer_N (p : Packet) : (s.offer p).N = s.N := rfl
@[simp] theorem State.offer_W (p : Packet) : (s.offer p).W = s.W := rfl
@[simp] theorem State.offer_P (p : Packet) : (s.offer p).P = s.P := rfl
@[simp] theorem State.offer_PLEN (p : Packet) : (s.offer p).PLEN = s.PLEN := rfl
@[simp] theorem State.offer_E (p : Packet) : (s.offer p).E = s.E := rfl
@[simp] theorem State.offer_D (p : Packet) : (s.offer p).D = s.D := rfl
@[simp] theorem State.offer_LVL (p : Packet) : (s.offer p).LVL = s.LVL := rfl
@[simp] theorem State.offer_ACT (p : Packet) : (s.offer p).ACT = s.ACT := rfl
@[simp] theorem State.offer_MU (p : Packet) : (s.offer p).MU = s.MU := rfl
@[simp] theorem State.offer_L (p : Packet) : (s.offer p).L = s.L := rfl
@[simp] theorem State.offer_T (p : Packet) : (s.offer p).T = s.T := rfl
@[simp] theorem State.offer_WV (p : Packet) : (s.offer p).WV = s.WV := rfl
@[simp] theorem State.offer_R (p : Packet) : (s.offer p).R = s.R := rfl
@[simp] theorem State.offer_inputs (p : Packet) : (s.offer p).inputs = .packet p :: s.inputs := rfl
@[simp] theorem State.offer_rsps (p : Packet) : (s.offer p).rsps = s.rsps := rfl

/-! ### Register and byte reads after updates that leave them alone -/

@[simp] theorem State.answer_width_read (status : Status) (data : Data) (idx : Nat) : (s.answer status data).width idx = s.width idx := rfl
@[simp] theorem State.answer_point_read (status : Status) (data : Data) (idx : Nat) : (s.answer status data).point idx = s.point idx := rfl
@[simp] theorem State.answer_plen_read (status : Status) (data : Data) (idx : Nat) : (s.answer status data).plen idx = s.plen idx := rfl
@[simp] theorem State.answer_byte_read (status : Status) (data : Data) (idx : Nat) : (s.answer status data).byte idx = s.byte idx := rfl
@[simp] theorem State.bufShl_width_read (n : Nat) (idx : Nat) : (s.bufShl n).width idx = s.width idx := rfl
@[simp] theorem State.bufShl_point_read (n : Nat) (idx : Nat) : (s.bufShl n).point idx = s.point idx := rfl
@[simp] theorem State.bufShl_plen_read (n : Nat) (idx : Nat) : (s.bufShl n).plen idx = s.plen idx := rfl
@[simp] theorem State.bufShlWide_width_read (k : Nat) (idx : Nat) : (s.bufShlWide k).width idx = s.width idx := rfl
@[simp] theorem State.bufShlWide_point_read (k : Nat) (idx : Nat) : (s.bufShlWide k).point idx = s.point idx := rfl
@[simp] theorem State.bufShlWide_plen_read (k : Nat) (idx : Nat) : (s.bufShlWide k).plen idx = s.plen idx := rfl
@[simp] theorem State.bufOr32_width_read (x : Word) (idx : Nat) : (s.bufOr32 x).width idx = s.width idx := rfl
@[simp] theorem State.bufOr32_point_read (x : Word) (idx : Nat) : (s.bufOr32 x).point idx = s.point idx := rfl
@[simp] theorem State.bufOr32_plen_read (x : Word) (idx : Nat) : (s.bufOr32 x).plen idx = s.plen idx := rfl
@[simp] theorem State.bufXor32_width_read (x : Word) (idx : Nat) : (s.bufXor32 x).width idx = s.width idx := rfl
@[simp] theorem State.bufXor32_point_read (x : Word) (idx : Nat) : (s.bufXor32 x).point idx = s.point idx := rfl
@[simp] theorem State.bufXor32_plen_read (x : Word) (idx : Nat) : (s.bufXor32 x).plen idx = s.plen idx := rfl
@[simp] theorem State.bufClear_width_read (idx : Nat) : (s.bufClear).width idx = s.width idx := rfl
@[simp] theorem State.bufClear_point_read (idx : Nat) : (s.bufClear).point idx = s.point idx := rfl
@[simp] theorem State.bufClear_plen_read (idx : Nat) : (s.bufClear).plen idx = s.plen idx := rfl
@[simp] theorem State.bufSetBit_width_read (pos : Nat) (idx : Nat) : (s.bufSetBit pos).width idx = s.width idx := rfl
@[simp] theorem State.bufSetBit_point_read (pos : Nat) (idx : Nat) : (s.bufSetBit pos).point idx = s.point idx := rfl
@[simp] theorem State.bufSetBit_plen_read (pos : Nat) (idx : Nat) : (s.bufSetBit pos).plen idx = s.plen idx := rfl
@[simp] theorem State.bufAlloc_width_read (size : Nat) (idx : Nat) : (s.bufAlloc size).width idx = s.width idx := rfl
@[simp] theorem State.bufAlloc_point_read (size : Nat) (idx : Nat) : (s.bufAlloc size).point idx = s.point idx := rfl
@[simp] theorem State.bufAlloc_plen_read (size : Nat) (idx : Nat) : (s.bufAlloc size).plen idx = s.plen idx := rfl
@[simp] theorem State.bufRelease_width_read (idx : Nat) : (s.bufRelease).width idx = s.width idx := rfl
@[simp] theorem State.bufRelease_point_read (idx : Nat) : (s.bufRelease).point idx = s.point idx := rfl
@[simp] theorem State.bufRelease_plen_read (idx : Nat) : (s.bufRelease).plen idx = s.plen idx := rfl
@[simp] theorem State.setWidth_point_read (j : Nat) (v : BitVec 8) (idx : Nat) : (s.setWidth j v).point idx = s.point idx := rfl
@[simp] theorem State.setWidth_plen_read (j : Nat) (v : BitVec 8) (idx : Nat) : (s.setWidth j v).plen idx = s.plen idx := rfl
@[simp] theorem State.setWidth_byte_read (j : Nat) (v : BitVec 8) (idx : Nat) : (s.setWidth j v).byte idx = s.byte idx := rfl
@[simp] theorem State.setPoint_width_read (j : Nat) (v : Word) (idx : Nat) : (s.setPoint j v).width idx = s.width idx := rfl
@[simp] theorem State.setPoint_plen_read (j : Nat) (v : Word) (idx : Nat) : (s.setPoint j v).plen idx = s.plen idx := rfl
@[simp] theorem State.setPoint_byte_read (j : Nat) (v : Word) (idx : Nat) : (s.setPoint j v).byte idx = s.byte idx := rfl
@[simp] theorem State.setPlen_width_read (j : Nat) (v : BitVec 3) (idx : Nat) : (s.setPlen j v).width idx = s.width idx := rfl
@[simp] theorem State.setPlen_point_read (j : Nat) (v : BitVec 3) (idx : Nat) : (s.setPlen j v).point idx = s.point idx := rfl
@[simp] theorem State.setPlen_byte_read (j : Nat) (v : BitVec 3) (idx : Nat) : (s.setPlen j v).byte idx = s.byte idx := rfl
@[simp] theorem State.level_width_read (i : Nat) (idx : Nat) : (s.level i).width idx = s.width idx := rfl
@[simp] theorem State.level_point_read (i : Nat) (idx : Nat) : (s.level i).point idx = s.point idx := rfl
@[simp] theorem State.level_plen_read (i : Nat) (idx : Nat) : (s.level i).plen idx = s.plen idx := rfl
@[simp] theorem State.startComputation_width_read (idx : Nat) : (s.startComputation).width idx = s.width idx := rfl
@[simp] theorem State.startComputation_point_read (idx : Nat) : (s.startComputation).point idx = s.point idx := rfl
@[simp] theorem State.startComputation_plen_read (idx : Nat) : (s.startComputation).plen idx = s.plen idx := rfl
@[simp] theorem State.abandon_width_read (idx : Nat) : (s.abandon).width idx = s.width idx := rfl
@[simp] theorem State.abandon_point_read (idx : Nat) : (s.abandon).point idx = s.point idx := rfl
@[simp] theorem State.abandon_plen_read (idx : Nat) : (s.abandon).plen idx = s.plen idx := rfl
@[simp] theorem State.abandon_byte_read (idx : Nat) : (s.abandon).byte idx = s.byte idx := rfl
@[simp] theorem State.offer_width_read (p : Packet) (idx : Nat) : (s.offer p).width idx = s.width idx := rfl
@[simp] theorem State.offer_point_read (p : Packet) (idx : Nat) : (s.offer p).point idx = s.point idx := rfl
@[simp] theorem State.offer_plen_read (p : Packet) (idx : Nat) : (s.offer p).plen idx = s.plen idx := rfl
@[simp] theorem State.offer_byte_read (p : Packet) (idx : Nat) : (s.offer p).byte idx = s.byte idx := rfl

/-! ### The configuration's quantities (R134) after updates that leave N and W alone -/

@[simp] theorem State.answer_totalWidth (status : Status) (data : Data) : (s.answer status data).totalWidth = s.totalWidth := rfl
@[simp] theorem State.answer_maxWidth (status : Status) (data : Data) : (s.answer status data).maxWidth = s.maxWidth := rfl
@[simp] theorem State.answer_sizeNeeded (status : Status) (data : Data) : (s.answer status data).sizeNeeded = s.sizeNeeded := rfl
@[simp] theorem State.bufShl_totalWidth (n : Nat) : (s.bufShl n).totalWidth = s.totalWidth := rfl
@[simp] theorem State.bufShl_maxWidth (n : Nat) : (s.bufShl n).maxWidth = s.maxWidth := rfl
@[simp] theorem State.bufShl_sizeNeeded (n : Nat) : (s.bufShl n).sizeNeeded = s.sizeNeeded := rfl
@[simp] theorem State.bufShlWide_totalWidth (k : Nat) : (s.bufShlWide k).totalWidth = s.totalWidth := rfl
@[simp] theorem State.bufShlWide_maxWidth (k : Nat) : (s.bufShlWide k).maxWidth = s.maxWidth := rfl
@[simp] theorem State.bufShlWide_sizeNeeded (k : Nat) : (s.bufShlWide k).sizeNeeded = s.sizeNeeded := rfl
@[simp] theorem State.bufOr32_totalWidth (x : Word) : (s.bufOr32 x).totalWidth = s.totalWidth := rfl
@[simp] theorem State.bufOr32_maxWidth (x : Word) : (s.bufOr32 x).maxWidth = s.maxWidth := rfl
@[simp] theorem State.bufOr32_sizeNeeded (x : Word) : (s.bufOr32 x).sizeNeeded = s.sizeNeeded := rfl
@[simp] theorem State.bufXor32_totalWidth (x : Word) : (s.bufXor32 x).totalWidth = s.totalWidth := rfl
@[simp] theorem State.bufXor32_maxWidth (x : Word) : (s.bufXor32 x).maxWidth = s.maxWidth := rfl
@[simp] theorem State.bufXor32_sizeNeeded (x : Word) : (s.bufXor32 x).sizeNeeded = s.sizeNeeded := rfl
@[simp] theorem State.bufClear_totalWidth : (s.bufClear).totalWidth = s.totalWidth := rfl
@[simp] theorem State.bufClear_maxWidth : (s.bufClear).maxWidth = s.maxWidth := rfl
@[simp] theorem State.bufClear_sizeNeeded : (s.bufClear).sizeNeeded = s.sizeNeeded := rfl
@[simp] theorem State.bufSetBit_totalWidth (pos : Nat) : (s.bufSetBit pos).totalWidth = s.totalWidth := rfl
@[simp] theorem State.bufSetBit_maxWidth (pos : Nat) : (s.bufSetBit pos).maxWidth = s.maxWidth := rfl
@[simp] theorem State.bufSetBit_sizeNeeded (pos : Nat) : (s.bufSetBit pos).sizeNeeded = s.sizeNeeded := rfl
@[simp] theorem State.bufAlloc_totalWidth (size : Nat) : (s.bufAlloc size).totalWidth = s.totalWidth := rfl
@[simp] theorem State.bufAlloc_maxWidth (size : Nat) : (s.bufAlloc size).maxWidth = s.maxWidth := rfl
@[simp] theorem State.bufAlloc_sizeNeeded (size : Nat) : (s.bufAlloc size).sizeNeeded = s.sizeNeeded := rfl
@[simp] theorem State.bufRelease_totalWidth : (s.bufRelease).totalWidth = s.totalWidth := rfl
@[simp] theorem State.bufRelease_maxWidth : (s.bufRelease).maxWidth = s.maxWidth := rfl
@[simp] theorem State.bufRelease_sizeNeeded : (s.bufRelease).sizeNeeded = s.sizeNeeded := rfl
@[simp] theorem State.setPoint_totalWidth (j : Nat) (v : Word) : (s.setPoint j v).totalWidth = s.totalWidth := rfl
@[simp] theorem State.setPoint_maxWidth (j : Nat) (v : Word) : (s.setPoint j v).maxWidth = s.maxWidth := rfl
@[simp] theorem State.setPoint_sizeNeeded (j : Nat) (v : Word) : (s.setPoint j v).sizeNeeded = s.sizeNeeded := rfl
@[simp] theorem State.setPlen_totalWidth (j : Nat) (v : BitVec 3) : (s.setPlen j v).totalWidth = s.totalWidth := rfl
@[simp] theorem State.setPlen_maxWidth (j : Nat) (v : BitVec 3) : (s.setPlen j v).maxWidth = s.maxWidth := rfl
@[simp] theorem State.setPlen_sizeNeeded (j : Nat) (v : BitVec 3) : (s.setPlen j v).sizeNeeded = s.sizeNeeded := rfl
@[simp] theorem State.level_totalWidth (i : Nat) : (s.level i).totalWidth = s.totalWidth := rfl
@[simp] theorem State.level_maxWidth (i : Nat) : (s.level i).maxWidth = s.maxWidth := rfl
@[simp] theorem State.level_sizeNeeded (i : Nat) : (s.level i).sizeNeeded = s.sizeNeeded := rfl
@[simp] theorem State.startComputation_totalWidth : (s.startComputation).totalWidth = s.totalWidth := rfl
@[simp] theorem State.startComputation_maxWidth : (s.startComputation).maxWidth = s.maxWidth := rfl
@[simp] theorem State.startComputation_sizeNeeded : (s.startComputation).sizeNeeded = s.sizeNeeded := rfl
@[simp] theorem State.abandon_totalWidth : (s.abandon).totalWidth = s.totalWidth := rfl
@[simp] theorem State.abandon_maxWidth : (s.abandon).maxWidth = s.maxWidth := rfl
@[simp] theorem State.abandon_sizeNeeded : (s.abandon).sizeNeeded = s.sizeNeeded := rfl
@[simp] theorem State.offer_totalWidth (p : Packet) : (s.offer p).totalWidth = s.totalWidth := rfl
@[simp] theorem State.offer_maxWidth (p : Packet) : (s.offer p).maxWidth = s.maxWidth := rfl
@[simp] theorem State.offer_sizeNeeded (p : Packet) : (s.offer p).sizeNeeded = s.sizeNeeded := rfl

end Sys2Proof.Machine
end

