-- ==== Sys2Proof/Laws/Memory.lean ====
section
/-! SUPPORT. The laws of the buffer storage: a read after a write, the canonical form and that every operation keeps it,
that canonical storages which read alike are equal, and what each unit operation of spec/40_bitbuffer.md leaves in each
byte. -/

namespace Sys2Proof.Machine

/-! ## Reading -/

@[simp] theorem Memory.read_nil (k : Nat) : Memory.read [] k = 0 := rfl

theorem Memory.read_cons (c : Host.Cell) (m : Memory) (k : Nat) :
    Memory.read (c :: m) k = if c.1 = k then c.2 else m.read k := rfl

theorem Memory.read_of_not_listed {m : Memory} {k : Nat} (h : ∀ c ∈ m, c.1 ≠ k) : m.read k = 0 := by
  induction m with
  | nil => rfl
  | cons c m ih =>
    rw [Memory.read_cons, if_neg (h c (by simp))]
    exact ih (fun c' hc' => h c' (by simp [hc']))

theorem Memory.read_of_mem {m : Memory} (hwf : m.wf) {c : Host.Cell} (hc : c ∈ m) : m.read c.1 = c.2 := by
  induction m with
  | nil => simp at hc
  | cons d m ih =>
    rw [Memory.read_cons]
    rcases List.mem_cons.mp hc with rfl | hm
    · simp
    · have hlt : d.1 < c.1 := (List.pairwise_cons.mp hwf.1).1 c hm
      rw [if_neg (by omega)]
      exact ih ⟨(List.pairwise_cons.mp hwf.1).2, fun x hx => hwf.2 x (by simp [hx])⟩ hm

/-! ## Writing -/

theorem Memory.read_erase (m : Memory) (k j : Nat) : (m.erase k).read j = if j = k then 0 else m.read j := by
  induction m with
  | nil => simp [Memory.erase]
  | cons c m ih =>
    simp only [Memory.erase, List.filter_cons] at ih ⊢
    by_cases hck : c.1 = k
    · simp only [hck, bne_self_eq_false, Bool.false_eq_true, if_false]
      rw [ih, Memory.read_cons]
      split_ifs <;> first | rfl | omega
    · simp only [bne_iff_ne, ne_eq, hck, not_false_eq_true, if_true, Memory.read_cons]
      rw [ih]
      split_ifs <;> first | rfl | omega

theorem Memory.read_insert {m : Memory} {k : Nat} (h : ∀ c ∈ m, c.1 ≠ k) (v : Byte) (j : Nat) :
    (m.insert k v).read j = if j = k then v else m.read j := by
  induction m with
  | nil =>
    simp only [Memory.insert, Memory.read_cons, Memory.read_nil]
    split_ifs <;> first | rfl | omega
  | cons c m ih =>
    have hc : c.1 ≠ k := h c (by simp)
    have ih := ih (fun c' hc' => h c' (by simp [hc']))
    simp only [Memory.insert]
    split_ifs with hlt hj hj <;> simp only [Memory.read_cons, ih] <;> split_ifs <;> first | rfl | omega

theorem Memory.not_mem_erase (m : Memory) (k : Nat) : ∀ c ∈ m.erase k, c.1 ≠ k := by
  intro c hc
  simpa [Memory.erase] using (List.mem_filter.mp hc).2

/-- The one law of a byte write, for every storage: the byte written reads as written, every other as before. -/
theorem Memory.read_write (m : Memory) (k : Nat) (v : Byte) (j : Nat) :
    (m.write k v).read j = if j = k then v else m.read j := by
  unfold Memory.write
  split_ifs with hv hj hj
  · rw [Memory.read_erase, if_pos hj, hv]; rfl
  · rw [Memory.read_erase, if_neg hj]
  · rw [Memory.read_insert (m.not_mem_erase k), if_pos hj]
  · rw [Memory.read_insert (m.not_mem_erase k), if_neg hj, Memory.read_erase, if_neg hj]

@[simp] theorem Memory.read_write_same (m : Memory) (k : Nat) (v : Byte) : (m.write k v).read k = v := by
  simp [Memory.read_write]

theorem Memory.read_write_other (m : Memory) {k j : Nat} (v : Byte) (h : j ≠ k) :
    (m.write k v).read j = m.read j := by
  simp [Memory.read_write, h]

/-! ## The canonical form -/

theorem Memory.wf_nil : Memory.wf [] := by simp [Memory.wf]

theorem Memory.wf_erase {m : Memory} (h : m.wf) (k : Nat) : (m.erase k).wf :=
  ⟨h.1.filter _, fun c hc => h.2 c (List.mem_filter.mp hc).1⟩

theorem Memory.mem_insert {m : Memory} {k : Nat} {v : Byte} {c : Host.Cell} :
    c ∈ m.insert k v → c = (k, v) ∨ c ∈ m := by
  induction m with
  | nil => simp [Memory.insert]
  | cons d m ih =>
    simp only [Memory.insert]
    split_ifs with hlt
    · simp
    · intro hc
      rcases List.mem_cons.mp hc with rfl | hm
      · simp
      · rcases ih hm with h | h <;> simp [h]

theorem Memory.wf_insert {m : Memory} (h : m.wf) {k : Nat} (hk : ∀ c ∈ m, c.1 ≠ k) {v : Byte}
    (hv : v ≠ Memory.unlisted) : (m.insert k v).wf := by
  refine ⟨?_, ?_⟩
  · induction m with
    | nil => simp [Memory.insert]
    | cons d m ih =>
      have hd := List.pairwise_cons.mp h.1
      simp only [Memory.insert]
      split_ifs with hlt
      · refine List.pairwise_cons.mpr ⟨?_, h.1⟩
        intro c hc
        rcases List.mem_cons.mp hc with rfl | hm
        · exact hlt
        · exact lt_trans hlt (hd.1 c hm)
      · refine List.pairwise_cons.mpr ⟨?_, ih ⟨hd.2, fun c hc => h.2 c (by simp [hc])⟩
          (fun c hc => hk c (by simp [hc]))⟩
        intro c hc
        rcases Memory.mem_insert hc with rfl | hm
        · have := hk d (by simp); show d.1 < k; omega
        · exact hd.1 c hm
  · intro c hc
    rcases Memory.mem_insert hc with rfl | hm
    · exact hv
    · exact h.2 c hm

theorem Memory.wf_write {m : Memory} (h : m.wf) (k : Nat) (v : Byte) : (m.write k v).wf := by
  unfold Memory.write
  split_ifs with hv
  · exact Memory.wf_erase h k
  · exact Memory.wf_insert (Memory.wf_erase h k) (m.not_mem_erase k) hv

/-- Canonical storages that read alike are equal. -/
theorem Memory.eq_of_read_eq {m m' : Memory} (h : m.wf) (h' : m'.wf) (hr : ∀ k, m.read k = m'.read k) : m = m' := by
  have mem_of : ∀ {a b : Memory}, a.wf → b.wf → (∀ k, a.read k = b.read k) → ∀ c ∈ a, c ∈ b := by
    intro a b ha hb hab c hc
    by_contra hn
    have hca : b.read c.1 = c.2 := by rw [← hab, Memory.read_of_mem ha hc]
    by_cases hl : ∃ d ∈ b, d.1 = c.1
    · obtain ⟨d, hd, hdc⟩ := hl
      have : d.2 = c.2 := by rw [← hca, ← hdc, Memory.read_of_mem hb hd]
      exact hn ((Prod.ext hdc this : d = c) ▸ hd)
    · push Not at hl
      rw [Memory.read_of_not_listed hl] at hca
      exact ha.2 c hc hca.symm
  refine List.Perm.eq_of_pairwise (le := fun x y : Host.Cell => x.1 < y.1) ?_ h.1 h'.1 ?_
  · intro x y _ _ hxy hyx
    exact absurd hxy (by omega)
  · refine (List.perm_ext_iff_of_nodup ?_ ?_).mpr
      (fun c => ⟨mem_of h h' hr c, mem_of h' h (fun k => (hr k).symm) c⟩)
    · exact h.1.imp (fun hlt he => by simp [he] at hlt)
    · exact h'.1.imp (fun hlt he => by simp [he] at hlt)

/-! ## The unit operations, byte by byte -/

theorem Memory.read_shlFrom (n count : Nat) : ∀ (k : Nat) (carry : Byte) (m : Memory) (j : Nat),
    (Memory.shlFrom n count k carry m).read j =
      if k ≤ j ∧ j < k + count then
        (m.read j <<< n) ||| (if j = k then carry else m.read (j - 1) >>> (8 - n))
      else m.read j := by
  induction count with
  | zero => intro k carry m j; rw [if_neg (by omega)]; rfl
  | succ count ih =>
    intro k carry m j
    rw [Memory.shlFrom, ih]
    by_cases hj : j = k
    · subst hj
      rw [if_neg (by omega), if_pos (by omega), if_pos rfl, Memory.read_write_same]
    · by_cases hin : k + 1 ≤ j ∧ j < k + 1 + count
      · have hout : k ≤ j ∧ j < k + (count + 1) := by omega
        rw [if_pos hin, if_pos hout, if_neg hj, Memory.read_write_other m _ hj]
        by_cases hk1 : j = k + 1
        · rw [if_pos hk1, hk1, Nat.add_sub_cancel]
        · rw [if_neg hk1, Memory.read_write_other m (j := j - 1) _ (by omega)]
      · have hout : ¬ (k ≤ j ∧ j < k + (count + 1)) := by omega
        rw [if_neg hin, if_neg hout, Memory.read_write_other m _ hj]

/-- R80: each byte of the buffer holds its own bits shifted up and the top bits of the byte below. -/
theorem Memory.read_shl (m : Memory) (size n j : Nat) :
    (m.shl size n).read j =
      if j < size then (m.read j <<< n) ||| (if j = 0 then 0 else m.read (j - 1) >>> (8 - n)) else m.read j := by
  rw [Memory.shl, Memory.read_shlFrom]
  simp

theorem Memory.wf_shlFrom (n count : Nat) : ∀ (k : Nat) (carry : Byte) {m : Memory}, m.wf →
    (Memory.shlFrom n count k carry m).wf := by
  induction count with
  | zero => intro k carry m h; exact h
  | succ count ih => intro k carry m h; exact ih _ _ (Memory.wf_write h _ _)

theorem Memory.wf_shl {m : Memory} (h : m.wf) (size n : Nat) : (m.shl size n).wf := Memory.wf_shlFrom n size 0 0 h

theorem Memory.wf_shlSevens (size count : Nat) : ∀ {m : Memory}, m.wf → (Memory.shlSevens size count m).wf := by
  induction count with
  | zero => intro m h; exact h
  | succ count ih => intro m h; exact ih (Memory.wf_shl h size 7)

theorem Memory.wf_shlWide {m : Memory} (h : m.wf) (size k : Nat) : (m.shlWide size k).wf :=
  Memory.wf_shl (Memory.wf_shlSevens size (k / 7) h) size (k % 7)

theorem Memory.read_shlSevens_above (size count : Nat) : ∀ (m : Memory) {j : Nat}, size ≤ j →
    (Memory.shlSevens size count m).read j = m.read j := by
  induction count with
  | zero => intro m j _; rfl
  | succ count ih => intro m j h; rw [Memory.shlSevens, ih _ h, Memory.read_shl, if_neg (by omega)]

/-- R80, R82: no byte at or above the buffer's size is written by a shift. -/
theorem Memory.read_shlWide_above (m : Memory) {size j : Nat} (k : Nat) (h : size ≤ j) :
    (m.shlWide size k).read j = m.read j := by
  rw [Memory.shlWide, Memory.read_shl, if_neg (by omega), Memory.read_shlSevens_above size _ m h]

/-- R83, R84: the four bytes from `base` up hold the combination with their lane, every other byte is as before. -/
theorem Memory.read_combine (f : Byte → Byte → Byte) (m : Memory) (base : Nat) (x : Word) (j : Nat) :
    (m.combine f base x).read j =
      if base ≤ j ∧ j < base + 4 then f (m.read j) (byteLane x (j - base)) else m.read j := by
  simp only [Memory.combine, List.foldl_cons, List.foldl_nil, Memory.read_write]
  by_cases h0 : j = base
  · subst h0; simp
  by_cases h1 : j = base + 1
  · subst h1; simp
  by_cases h2 : j = base + 2
  · subst h2; simp
  by_cases h3 : j = base + 3
  · subst h3; simp
  rw [if_neg h3, if_neg h2, if_neg h1, if_neg (by omega), if_neg (by omega)]

theorem Memory.wf_combine (f : Byte → Byte → Byte) {m : Memory} (h : m.wf) (base : Nat) (x : Word) :
    (m.combine f base x).wf := by
  simp only [Memory.combine, List.foldl_cons, List.foldl_nil]
  exact Memory.wf_write (Memory.wf_write (Memory.wf_write (Memory.wf_write h _ _) _ _) _ _) _ _

theorem Memory.wf_or32 {m : Memory} (h : m.wf) (size : Nat) (x : Word) : (m.or32 size x).wf :=
  Memory.wf_combine _ h _ x

theorem Memory.wf_xor32 {m : Memory} (h : m.wf) (x : Word) : (m.xor32 x).wf := Memory.wf_combine _ h _ x

/-- R83: the four highest-index bytes of the buffer take their lane of the operand, no other byte changes. -/
theorem Memory.read_or32 (m : Memory) (size : Nat) (x : Word) (j : Nat) :
    (m.or32 size x).read j =
      if size - 4 ≤ j ∧ j < size - 4 + 4 then m.read j ||| byteLane x (j - (size - 4)) else m.read j :=
  Memory.read_combine _ m _ x j

/-- R84: bytes 0 to 3 take their lane of the operand, no other byte changes. -/
theorem Memory.read_xor32 (m : Memory) (x : Word) (j : Nat) :
    (m.xor32 x).read j = if j < 4 then m.read j ^^^ byteLane x j else m.read j := by
  rw [Memory.xor32, Memory.read_combine]
  simp

/-- R87: the bytes of the buffer are zero, no other byte changes. -/
theorem Memory.read_clear (size : Nat) : ∀ (m : Memory) (j : Nat),
    (m.clear size).read j = if j < size then 0 else m.read j := by
  induction size with
  | zero => intro m j; simp [Memory.clear]
  | succ size ih =>
    intro m j
    rw [Memory.clear, ih, Memory.read_write]
    split_ifs <;> first | rfl | omega

theorem Memory.wf_clear (size : Nat) : ∀ {m : Memory}, m.wf → (m.clear size).wf := by
  induction size with
  | zero => intro m h; simpa [Memory.clear] using h
  | succ size ih => intro m h; rw [Memory.clear]; exact ih (Memory.wf_write h _ _)

/-- R91: the byte of the position takes the bit, no other byte changes. -/
theorem Memory.read_setBit (m : Memory) (pos j : Nat) :
    (m.setBit pos).read j = if j = pos / 8 then m.read j ||| (1#8 <<< (pos % 8)) else m.read j := by
  rw [Memory.setBit, Memory.read_write]
  split_ifs with h <;> simp [h]

theorem Memory.wf_setBit {m : Memory} (h : m.wf) (pos : Nat) : (m.setBit pos).wf := Memory.wf_write h _ _

/-! ## Values of several bytes -/

/-- `MemRead` depends on the bytes it reads only. -/
theorem Memory.readN_congr {m m' : Memory} (addr : Nat) : ∀ n, (∀ t, t < n → m.read (addr + t) = m'.read (addr + t)) →
    m.readN addr n = m'.readN addr n
  | 0, _ => rfl
  | n + 1, h => by
    rw [Memory.readN, Memory.readN, Memory.readN_congr addr n (fun t ht => h t (by omega)), h n (by omega)]

/-- `MemRead(addr, n)` is below `2^(8n)` (R15). -/
theorem Memory.readN_lt (m : Memory) (addr : Nat) : ∀ n, m.readN addr n < 2 ^ (8 * n)
  | 0 => by simp [Memory.readN]
  | n + 1 => by
    have h1 := Memory.readN_lt m addr n
    have h2 := (m.read (addr + n)).isLt
    have h3 : 2 ^ (8 * (n + 1)) = 2 ^ (8 * n) * 2 ^ 8 := by rw [← Nat.pow_add]; ring_nf
    rw [Memory.readN, h3]
    nlinarith [Nat.two_pow_pos (8 * n)]

end Sys2Proof.Machine
end

