-- ==== Sys2Proof/Laws/Ops.lean ====
section
/-! SUPPORT. What the shared operations of a command can do: the checks and the answer (one inversion lemma), register
reads after register writes, the operand forms, the register map and the channel. -/

namespace Sys2Proof.Machine

/-! ## Checks and answers -/

@[simp] theorem firstFailure_nil : firstFailure [] = none := rfl

@[simp] theorem firstFailure_cons (failed : Bool) (status : Status) (rest : List (Bool × Status)) :
    firstFailure ((failed, status) :: rest) = if failed then some status else firstFailure rest := by
  cases failed <;> rfl

/-- No check fails exactly when every condition is false. -/
theorem firstFailure_eq_none {checks : List (Bool × Status)} :
    firstFailure checks = none ↔ ∀ c ∈ checks, c.1 = false := by
  induction checks with
  | nil => simp
  | cons c rest ih =>
    obtain ⟨failed, status⟩ := c
    cases failed <;> simp [ih]

/-- A status that is raised is one of the checks', and its condition holds. -/
theorem firstFailure_eq_some {checks : List (Bool × Status)} {status : Status}
    (h : firstFailure checks = some status) : (true, status) ∈ checks := by
  induction checks with
  | nil => simp at h
  | cons c rest ih =>
    obtain ⟨failed, st⟩ := c
    cases failed
    · exact List.mem_cons_of_mem _ (ih (by simpa using h))
    · have hst : st = status := by simpa using h
      exact hst ▸ List.mem_cons_self

/-- A command always answers a next state: it raises a status or takes its own effect. -/
theorem complete_cases (s : State) (checks : List (Bool × Status)) (done : State) :
    (∃ status, firstFailure checks = some status ∧ complete s checks done = .next (s.answer status 0)) ∨
      (firstFailure checks = none ∧ complete s checks done = .next done) := by
  unfold complete
  cases h : firstFailure checks with
  | none => exact .inr ⟨rfl, rfl⟩
  | some status => exact .inl ⟨status, rfl, rfl⟩

/-- The inversion of a command: the next state is a refusal's, or every check passed and it is the effect's. -/
theorem complete_next {s t : State} {checks : List (Bool × Status)} {done : State}
    (h : complete s checks done = .next t) :
    (∃ status, firstFailure checks = some status ∧ t = s.answer status 0) ∨
      (firstFailure checks = none ∧ t = done) := by
  rcases complete_cases s checks done with ⟨status, hf, hc⟩ | ⟨hf, hc⟩ <;>
    rw [hc, Host.Outcome.next.injEq] at h
  · exact .inl ⟨status, hf, h.symm⟩
  · exact .inr ⟨hf, h.symm⟩

/-- Every check passes: the effect is taken. -/
theorem complete_of_pass {s : State} {checks : List (Bool × Status)} {done : State}
    (h : firstFailure checks = none) : complete s checks done = .next done := by
  simp [complete, h]

/-- A check fails first: its status is raised. -/
theorem complete_of_fail {s : State} {checks : List (Bool × Status)} {done : State} {status : Status}
    (h : firstFailure checks = some status) : complete s checks done = .next (s.answer status 0) := by
  simp [complete, h]

/-! ## Registers -/

theorem State.setWidth_width (s : State) (j : Nat) (v : BitVec 8) {k : Nat} (hk : k < 32) :
    (s.setWidth j v).width k = if j = k then v else s.width k := by
  simp only [State.width, State.setWidth_W, Vector.getElem?_setIfInBounds]
  split_ifs with h <;> simp_all

theorem State.setPoint_point (s : State) (j : Nat) (v : Word) {k : Nat} (hk : k < 32) :
    (s.setPoint j v).point k = if j = k then v else s.point k := by
  simp only [State.point, State.setPoint_P, Vector.getElem?_setIfInBounds]
  split_ifs with h <;> simp_all

theorem State.setPlen_plen (s : State) (j : Nat) (v : BitVec 3) {k : Nat} (hk : k < 32) :
    (s.setPlen j v).plen k = if j = k then v else s.plen k := by
  simp only [State.plen, State.setPlen_PLEN, Vector.getElem?_setIfInBounds]
  split_ifs with h <;> simp_all

@[simp] theorem State.width_reset (c : Config) (j : Nat) : (State.resetOf c).width j = 0 := by
  simp only [State.width, State.resetOf, Vector.getElem?_replicate]; split_ifs <;> rfl

@[simp] theorem State.point_reset (c : Config) (j : Nat) : (State.resetOf c).point j = 0 := by
  simp only [State.point, State.resetOf, Vector.getElem?_replicate]; split_ifs <;> rfl

@[simp] theorem State.plen_reset (c : Config) (j : Nat) : (State.resetOf c).plen j = 0 := by
  simp only [State.plen, State.resetOf, Vector.getElem?_replicate]; split_ifs <;> rfl

theorem State.reset_memory_wf : State.reset.B.wf := Memory.wf_nil

/-! ## Operand forms -/

/-- R42: bit `b` of lane `t` is bit `8t + b` of the word. -/
theorem byteLane_getLsbD (x : Word) (t b : Nat) :
    (byteLane x t).getLsbD b = (decide (b < 8) && x.getLsbD (8 * t + b)) := by
  simp [byteLane, BitVec.getLsbD_extractLsb']

/-- R105: bit `i` of a point's byte sequence is bit `i` of its register, for the 32 bits it has. -/
theorem bitAtBytes_pointBytes (v : Word) {i : Nat} (h : i < 32) : bitAtBytes (pointBytes v) i = v.getLsbD i := by
  have hdiv : i = 8 * (i / 8) + i % 8 := by omega
  have hmod : i % 8 < 8 := Nat.mod_lt _ (by omega)
  have hq : i / 8 = 0 ∨ i / 8 = 1 ∨ i / 8 = 2 ∨ i / 8 = 3 := by omega
  unfold bitAtBytes pointBytes
  rcases hq with hq | hq | hq | hq <;>
    · rw [hq] at hdiv ⊢
      simp only [List.getD_cons_zero, List.getD_cons_succ, byteLane_getLsbD, hmod, decide_true, Bool.true_and]
      rw [← hdiv]

/-- R133: a supplied bit is kept, every bit above the supplied bytes is zero. -/
theorem suppliedBytes_getLsbD (bytes : Word) (nbytes i : Nat) :
    (suppliedBytes bytes nbytes).getLsbD i = (bytes.getLsbD i && decide (i < 8 * nbytes)) := by
  by_cases hi : i < 32
  · rw [suppliedBytes, BitVec.getLsbD_and, BitVec.getLsbD_ofNat, Nat.testBit_two_pow_sub_one]
    simp [hi]
  · simp [BitVec.getLsbD_of_ge _ _ (Nat.le_of_not_lt hi)]

/-! ## The channel -/

@[simp] theorem State.nextInput_nil {s : State} (h : s.inputs = []) : s.nextInput = none := by
  simp [State.nextInput, h]

@[simp] theorem State.nextInput_cons {s : State} {e : HostEvent} {rest : List HostEvent} (h : s.inputs = e :: rest) :
    s.nextInput = some e := by
  simp [State.nextInput, h]

/-- What a step can be: idle, a reset, an illegal packet, or a command. -/
theorem step_cases (s : State) :
    (s.inputs = [] ∧ step s = .next s) ∨
      (∃ rest, s.inputs = .rst :: rest ∧ step s = .next s.takeReset) ∨
      (∃ p rest e, s.inputs = .packet p :: rest ∧ decode p = .error e ∧ step s = .next (s.answer .illegal 0)) ∨
      (∃ p rest i, s.inputs = .packet p :: rest ∧ decode p = .ok i ∧ step s = exec i s) := by
  cases h : s.inputs with
  | nil => exact .inl ⟨rfl, by rw [step, State.nextInput_nil h]; rfl⟩
  | cons e rest =>
    cases e with
    | rst => exact .inr (.inl ⟨rest, rfl, by rw [step, State.nextInput_cons h]; rfl⟩)
    | packet p =>
      cases hd : decode p with
      | error e =>
        exact .inr (.inr (.inl ⟨p, rest, e, rfl, hd, by
          rw [step, State.nextInput_cons h]; simp [takeEvent, acceptPacket, hd]⟩))
      | ok i =>
        exact .inr (.inr (.inr ⟨p, rest, i, rfl, hd, by
          rw [step, State.nextInput_cons h]; simp [takeEvent, acceptPacket, hd]⟩))

end Sys2Proof.Machine
end

