-- ==== Sys2Proof/Laws/Primitives.lean ====
section
/-! SUPPORT. What each function of spec/41_primitives.md computes, bit by bit or as a bound. -/

namespace Sys2Proof.Machine

/-- R100: bit `k` of the Gray code. -/
theorem gray_getLsbD (i : Word) (k : Nat) : (gray i).getLsbD k = (i.getLsbD k ^^ i.getLsbD (k + 1)) := by
  simp only [gray, BitVec.getLsbD_xor, BitVec.getLsbD_ushiftRight, Nat.add_comm 1 k]

theorem igray_fold_getLsbD (g : Word) (k : Nat) (shifts : List Nat) : ∀ acc : Word,
    (shifts.foldl (fun acc shift => acc ^^^ (g >>> shift)) acc).getLsbD k =
      shifts.foldl (fun b shift => b ^^ g.getLsbD (shift + k)) (acc.getLsbD k) := by
  induction shifts with
  | nil => intro acc; rfl
  | cons shift rest ih =>
    intro acc
    rw [List.foldl_cons, ih, List.foldl_cons, BitVec.getLsbD_xor, BitVec.getLsbD_ushiftRight]

/-- R101: bit `k` of the inverse Gray code is the exclusive or of bits `k`, `k + 1`, ... of the word. -/
theorem igray_getLsbD (g : Word) (k : Nat) :
    (igray g).getLsbD k = (List.range' 1 31).foldl (fun b shift => b ^^ g.getLsbD (shift + k)) (g.getLsbD k) :=
  igray_fold_getLsbD g k _ g

/-- R102: the rotation is core Lean's. -/
theorem rotl_eq_rotateLeft (v : Word) {amount : Nat} (h : amount < 32) : rotl v amount = v.rotateLeft amount := by
  rw [BitVec.rotateLeft_eq_rotateLeftAux_of_lt h, rotl, BitVec.rotateLeftAux]
  split_ifs with h0
  · subst h0
    have h32 : v >>> 32 = 0#32 := BitVec.ushiftRight_eq_zero (by omega)
    simp [h32]
  · rfl

/-- R103: the rotation is core Lean's. -/
theorem rotr_eq_rotateRight (v : Word) {amount : Nat} (h : amount < 32) : rotr v amount = v.rotateRight amount := by
  rw [BitVec.rotateRight_eq_rotateRightAux_of_lt h, rotr, BitVec.rotateRightAux]
  split_ifs with h0
  · subst h0
    have h32 : v <<< 32 = 0#32 := BitVec.shiftLeft_eq_zero (by omega)
    simp [h32]
  · rfl

/-- R106: a count is at most 32. -/
theorem popcount_le (v : Word) : popcount v ≤ 32 := by
  have h : ∀ l : List Nat, (l.map (fun k => (v.getLsbD k).toNat)).sum ≤ l.length := by
    intro l
    induction l with
    | nil => simp
    | cons k rest ih =>
      have : (v.getLsbD k).toNat ≤ 1 := Bool.toNat_le _
      simp only [List.map_cons, List.sum_cons, List.length_cons]
      omega
  simpa [popcount] using h (List.range 32)

/-- R108: a direction is an axis below `n`. -/
theorem direction_lt (i : Word) {n : Nat} (h : 1 ≤ n) : direction i n < n := by
  unfold direction
  split_ifs
  · omega
  · exact Nat.mod_lt _ (by omega)
  · exact Nat.mod_lt _ (by omega)

theorem maskFrom_getLsbD (n : Nat) (W : Vector (BitVec 8) 32) (level d : Nat) : ∀ (j : Nat) (mask : Word) (k : Nat),
    (maskFrom n W level d j mask).getLsbD k =
      if k < j then decide (k < 32) && decide (level < (W[(k + d) % n]?.getD 0).toNat)
      else decide (k < 32) && mask.getLsbD (k - j)
  | 0, mask, k => by
    by_cases hk : k < 32
    · simp [maskFrom, hk]
    · simp [maskFrom, BitVec.getLsbD_of_ge _ _ (Nat.le_of_not_lt hk)]
  | j + 1, mask, k => by
    rw [maskFrom, maskFrom_getLsbD n W level d j]
    by_cases hk : k < 32
    · by_cases h1 : k < j
      · rw [if_pos h1, if_pos (show k < j + 1 by omega)]
      · rw [if_neg h1]
        by_cases h2 : k = j
        · subst h2
          simp [hk]
        · have h3 : ¬ k < j + 1 := by omega
          have h4 : k - j = k - (j + 1) + 1 := by omega
          have h5 : k - (j + 1) + 1 < 32 := by omega
          rw [if_neg h3, h4]
          simp [hk, h5]
          rw [← BitVec.getLsbD_eq_getElem]
    · simp [hk]

/-- R109: bit `k` of the mask says whether axis `(k + d) mod n` is wider than the level; bits from `n` up are zero. -/
theorem extractMask_getLsbD (n : Nat) (W : Vector (BitVec 8) 32) (level d k : Nat) :
    (extractMask n W level d).getLsbD k =
      (decide (k < 32) && (decide (k < n) && decide (level < (W[(k + d) % n]?.getD 0).toNat))) := by
  rw [extractMask, maskFrom_getLsbD]
  split_ifs with h <;> simp [h]

/-- R110: with no bit position to look at, the rank is 0. -/
@[simp] theorem gcr_zero (mu w : Word) : gcr 0 mu w = 0 := rfl

/-- R110: the highest position is looked at first; a bit it gives is the most significant. -/
theorem gcrFrom_succ (mu w : Word) (j : Nat) (r : Word) :
    gcrFrom mu w (j + 1) r =
      gcrFrom mu w j (if mu.getLsbD j then (r <<< 1) ||| (BitVec.ofBool (w.getLsbD j)).setWidth 32 else r) := rfl

end Sys2Proof.Machine
end

