-- ==== Sys2Proof/Laws/Engine.lean ====
section
/-! SUPPORT. What the engine's operations (spec/42_engine.md) leave: the cross-section bit by bit, the frame of a level,
of a loop of levels, and of the commands' effects. -/

namespace Sys2Proof.Machine

theorem crossFrom_getLsbD (s : State) (i : Nat) : ∀ (j : Nat) (l : Word) (k : Nat), k < 32 →
    (crossFrom s i j l).getLsbD k =
      (l.getLsbD k || (decide (k < j) && bitAtBytes (pointBytes (s.point k)) i))
  | 0, l, k, _ => by simp [crossFrom]
  | j + 1, l, k, hk => by
    rw [crossFrom, crossFrom_getLsbD s i j _ k hk]
    by_cases h1 : k < j
    · simp [h1, show k < j + 1 by omega]
    · by_cases h2 : k = j
      · subst h2
        simp [hk]
      · have h3 : ¬ k < j + 1 := by omega
        have h4 : ¬ k < j := h1
        have h5 : ¬ k - j < 1 := by omega
        simp [h3, h4]
        intro _ _ h6
        omega

/-- R139: bit `k` of the cross-section is bit `i` of point `k`, for every axis below `N`. -/
theorem State.levelCross_getLsbD (s : State) {i k : Nat} (hi : i < 32) (hk : k < 32) :
    (s.levelCross i).getLsbD k = (decide (k < s.N.toNat) && (s.point k).getLsbD i) := by
  rw [State.levelCross, crossFrom_getLsbD s i _ _ _ hk, bitAtBytes_pointBytes _ hi]
  simp

/-- R138: bit `k` of the level's mask. -/
theorem State.levelMask_getLsbD (s : State) (i k : Nat) :
    (s.levelMask i).getLsbD k =
      (decide (k < 32) && (decide (k < s.N.toNat) && decide (i < (s.width ((k + s.D.toNat) % s.N.toNat)).toNat))) :=
  extractMask_getLsbD _ _ _ _ _

/-- R144: `D` stays an axis below `N`. -/
theorem State.levelD_lt (s : State) (i : Nat) (h1 : 1 ≤ s.N.toNat) (h2 : s.N.toNat ≤ 32) :
    (s.levelD i).toNat < s.N.toNat := by
  have hm : (s.D.toNat + direction (s.levelWord i) s.N.toNat + 1) % s.N.toNat < s.N.toNat :=
    Nat.mod_lt _ (by omega)
  rw [State.levelD, BitVec.toNat_ofNat, Nat.mod_eq_of_lt (by omega)]
  exact hm

theorem State.levelAppend_wf (s : State) (i : Nat) (h : s.B.wf) : (s.levelAppend i).wf :=
  Memory.wf_or32 (Memory.wf_shlWide h _ _) _ _

/-- R143: a level writes no byte outside the buffer. -/
theorem State.levelAppend_above (s : State) (i : Nat) {k : Nat} (h4 : 4 ≤ s.S.toNat) (hk : s.S.toNat ≤ k) :
    (s.levelAppend i).read k = s.B.read k := by
  rw [State.levelAppend, Memory.read_or32, if_neg (by omega), Memory.read_shlWide_above _ _ hk]

/-- The frame of a loop of levels: what no level writes, the loop does not write. -/
theorem State.runLevels_frame (m : Nat) : ∀ s : State,
    (State.runLevels m s).cfg = s.cfg ∧ (State.runLevels m s).S = s.S ∧ (State.runLevels m s).BV = s.BV ∧
      (State.runLevels m s).N = s.N ∧ (State.runLevels m s).W = s.W ∧ (State.runLevels m s).P = s.P ∧
      (State.runLevels m s).PLEN = s.PLEN ∧ (State.runLevels m s).LVL = s.LVL ∧
      (State.runLevels m s).ACT = s.ACT ∧ (State.runLevels m s).inputs = s.inputs ∧
      (State.runLevels m s).rsps = s.rsps := by
  induction m with
  | zero => intro s; exact ⟨rfl, rfl, rfl, rfl, rfl, rfl, rfl, rfl, rfl, rfl, rfl⟩
  | succ m ih => intro s; exact ih (s.level m)

/-- A property that every level keeps, a loop of levels keeps. -/
theorem State.runLevels_induction {motive : State → Prop} (hstep : ∀ s i, motive s → motive (s.level i)) (m : Nat) :
    ∀ s, motive s → motive (State.runLevels m s) := by
  induction m with
  | zero => intro s h; exact h
  | succ m ih => intro s h; exact ih _ (hstep s m h)

/-- The frame of hx.run's effect (R147, R150). -/
theorem State.computeIndex_frame (s : State) :
    s.computeIndex.cfg = s.cfg ∧ s.computeIndex.S = BitVec.ofNat 16 s.sizeNeeded ∧ s.computeIndex.BV = true ∧
      s.computeIndex.N = s.N ∧ s.computeIndex.W = s.W ∧ s.computeIndex.P = s.P ∧ s.computeIndex.PLEN = s.PLEN ∧
      s.computeIndex.LVL = 0 ∧ s.computeIndex.ACT = false ∧ s.computeIndex.inputs = s.inputs ∧
      s.computeIndex.rsps = s.rsps := by
  obtain ⟨h1, h2, h3, h4, h5, h6, h7, _, _, h10, h11⟩ :=
    State.runLevels_frame s.maxWidth { s.bufAlloc s.sizeNeeded with E := 0, D := 0 }
  exact ⟨h1, h2, h3, h4, h5, h6, h7, rfl, rfl, h10, h11⟩

/-- What hx.step's effect is: level 0 and the end, or a higher level and the next one to come (R145). -/
theorem State.advance_cases (s : State) :
    (s.LVL = 0 ∧ s.advance = { s.level 0 with ACT := false }) ∨
      (s.LVL ≠ 0 ∧ s.advance = { s.level s.LVL.toNat with LVL := s.LVL - 1 }) := by
  by_cases h : s.LVL = 0
  · exact .inl ⟨h, if_pos h⟩
  · exact .inr ⟨h, if_neg h⟩

end Sys2Proof.Machine
end

