-- ==== Sys2Proof/Laws/PerInstr.lean ====
section
/-! SUPPORT. The per-instruction family EncodesItsRow: the control word of every command's packet matches, under the
format's mask, exactly one row of the opcode map (spec/30_encoding.md R62, R64). -/

namespace Sys2Proof.Laws

/-- The packet of the command carries the opcode of a row of R64 and zeros in every bit the row's format reserves. -/
def EncodesItsRow.Statement (i : Instr) : Prop :=
  ∃ r ∈ opcodeTable, (encode i).ctl &&& r.format.mask = BitVec.ofNat 32 r.opcode

/-- The control word of a packet put together from words. -/
theorem ctl_ofWords (ctl opA opB : Word) : (Packet.ofWords ctl opA opB).ctl = ctl := by
  apply BitVec.eq_of_getLsbD_eq
  intro k hk
  rw [Packet.ofWords, Packet.ctl, BitVec.getLsbD_extractLsb', Nat.zero_add, BitVec.getLsbD_append, if_pos hk]
  simp [hk]

/-- Bit `k` of a control word made of its fields (R61). -/
theorem ctlOf_getLsbD (op a b c k : Nat) :
    (ctlOf op a b c).getLsbD k =
      if k < 8 then op.testBit k else if k < 16 then a.testBit (k - 8) else if k < 24 then b.testBit (k - 16)
      else decide (k < 32) && c.testBit (k - 24) := by
  simp only [ctlOf, BitVec.getLsbD_append, BitVec.getLsbD_ofNat]
  by_cases h0 : k < 8
  · simp [h0]
  by_cases h1 : k < 16
  · simp [h0, h1, show k - 8 < 8 by omega]
  by_cases h2 : k < 24
  · simp [h0, h1, h2, show ¬ k - 8 < 8 by omega, show k - 16 < 8 by omega, show k - 8 - 8 = k - 16 by omega]
  · simp [h0, h1, h2, show ¬ k - 8 < 8 by omega, show ¬ k - 16 < 8 by omega, show k - 8 - 8 = k - 16 by omega,
      show k - 16 - 8 = k - 24 by omega, show (k - 24 < 8) = (k < 32) by rw [eq_iff_iff]; omega]

/-- Bit `k` of a control word of format I (R61). -/
theorem ctlOfImm_getLsbD (op imm k : Nat) :
    (ctlOfImm op imm).getLsbD k =
      if k < 8 then op.testBit k else if k < 16 then false else decide (k < 32) && imm.testBit (k - 16) := by
  simp only [ctlOfImm, BitVec.getLsbD_append, BitVec.getLsbD_ofNat]
  by_cases h0 : k < 8
  · simp [h0]
  by_cases h1 : k < 16
  · simp [h0, h1, show k - 8 < 8 by omega]
  · simp [h0, h1, show ¬ k - 8 < 8 by omega, show k - 8 - 8 = k - 16 by omega,
      show (k - 16 < 16) = (k < 32) by rw [eq_iff_iff]; omega]

/-- R62: the bits of the masks of formats Z, A, AB and ABC. -/
theorem mask_getLsbD (f : Format) (hI : f ≠ .I) : ∀ k < 32, f.mask.getLsbD k =
    (if k < 8 then true else if k < 16 then decide (f = .Z)
      else if k < 24 then decide (f = .Z ∨ f = .A) else decide (f = .Z ∨ f = .A ∨ f = .AB)) := by
  cases f <;> first | decide | exact absurd rfl hI

/-- R62: the bits of the mask of format I. -/
theorem maskI_getLsbD : ∀ k < 32, (Format.mask .I).getLsbD k = decide (k < 16) := by decide

/-- Format Z and A and AB and ABC: the unused fields zero, the mask leaves the opcode (R62). -/
theorem mask_ctlOf (f : Format) (op a b c : Nat) (hop : op < 256) (hI : f ≠ .I)
    (ha : f = .Z → a = 0) (hb : f = .Z ∨ f = .A → b = 0) (hc : f = .Z ∨ f = .A ∨ f = .AB → c = 0) :
    ctlOf op a b c &&& f.mask = BitVec.ofNat 32 op := by
  apply BitVec.eq_of_getLsbD_eq
  intro k hk
  have hhigh : 8 ≤ k → op.testBit k = false := fun h =>
    Nat.testBit_lt_two_pow (lt_of_lt_of_le (b := 2 ^ 8) hop (Nat.pow_le_pow_right (by decide) h))
  rw [BitVec.getLsbD_and, ctlOf_getLsbD, BitVec.getLsbD_ofNat]
  rw [mask_getLsbD f hI k hk]
  split_ifs with h0 h1 h2
  · simp [hk]
  · by_cases hz : f = .Z
    · simp [ha hz, hhigh (by omega)]
    · simp [hz, hhigh (by omega)]
  · by_cases hz : f = .Z ∨ f = .A
    · simp [hb hz, hhigh (by omega)]
    · simp [hz, hhigh (by omega)]
  · by_cases hz : f = .Z ∨ f = .A ∨ f = .AB
    · simp [hc hz, hhigh (by omega)]
    · simp [hz, hhigh (by omega)]

/-- Format I: the reserved field zero, the mask leaves the opcode (R62). -/
theorem mask_ctlOfImm (op imm : Nat) (hop : op < 256) :
    ctlOfImm op imm &&& Format.mask .I = BitVec.ofNat 32 op := by
  apply BitVec.eq_of_getLsbD_eq
  intro k hk
  have hhigh : 8 ≤ k → op.testBit k = false := fun h =>
    Nat.testBit_lt_two_pow (lt_of_lt_of_le (b := 2 ^ 8) hop (Nat.pow_le_pow_right (by decide) h))
  rw [BitVec.getLsbD_and, ctlOfImm_getLsbD, BitVec.getLsbD_ofNat, maskI_getLsbD k hk]
  split_ifs with h0 h1
  · simp [hk, show k < 16 by omega]
  · simp [hhigh (by omega)]
  · simp [h1, hhigh (by omega)]

theorem EncodesItsRow.bbCreate (size : Nat) : EncodesItsRow.Statement (.bbCreate size) :=
  ⟨opcodeTable[0], List.getElem_mem _, by
    rw [encode, ctl_ofWords]; exact mask_ctlOfImm 0x10 _ (by omega)⟩

theorem EncodesItsRow.bbClear : EncodesItsRow.Statement .bbClear :=
  ⟨opcodeTable[1], List.getElem_mem _, by
    rw [encode, ctl_ofWords]; exact mask_ctlOf .Z 0x11 _ _ _ (by omega) (by decide) (by simp) (by simp) (by simp)⟩

theorem EncodesItsRow.bbShl (n : Nat) : EncodesItsRow.Statement (.bbShl n) :=
  ⟨opcodeTable[2], List.getElem_mem _, by
    rw [encode, ctl_ofWords]; exact mask_ctlOf .A 0x12 _ _ _ (by omega) (by decide) (by simp) (by simp) (by simp)⟩

theorem EncodesItsRow.bbOrw (x : Word) : EncodesItsRow.Statement (.bbOrw x) :=
  ⟨opcodeTable[3], List.getElem_mem _, by
    rw [encode, ctl_ofWords]; exact mask_ctlOf .Z 0x13 _ _ _ (by omega) (by decide) (by simp) (by simp) (by simp)⟩

theorem EncodesItsRow.bbXorw (x : Word) : EncodesItsRow.Statement (.bbXorw x) :=
  ⟨opcodeTable[4], List.getElem_mem _, by
    rw [encode, ctl_ofWords]; exact mask_ctlOf .Z 0x14 _ _ _ (by omega) (by decide) (by simp) (by simp) (by simp)⟩

theorem EncodesItsRow.bbSetbit (pos : Nat) : EncodesItsRow.Statement (.bbSetbit pos) :=
  ⟨opcodeTable[5], List.getElem_mem _, by
    rw [encode, ctl_ofWords]; exact mask_ctlOfImm 0x15 _ (by omega)⟩

theorem EncodesItsRow.bbRd64 : EncodesItsRow.Statement .bbRd64 :=
  ⟨opcodeTable[6], List.getElem_mem _, by
    rw [encode, ctl_ofWords]; exact mask_ctlOf .Z 0x16 _ _ _ (by omega) (by decide) (by simp) (by simp) (by simp)⟩

theorem EncodesItsRow.bbRdb (index : Nat) : EncodesItsRow.Statement (.bbRdb index) :=
  ⟨opcodeTable[7], List.getElem_mem _, by
    rw [encode, ctl_ofWords]; exact mask_ctlOfImm 0x17 _ (by omega)⟩

theorem EncodesItsRow.bbRelease : EncodesItsRow.Statement .bbRelease :=
  ⟨opcodeTable[8], List.getElem_mem _, by
    rw [encode, ctl_ofWords]; exact mask_ctlOf .Z 0x18 _ _ _ (by omega) (by decide) (by simp) (by simp) (by simp)⟩

theorem EncodesItsRow.puGray (i : Word) : EncodesItsRow.Statement (.puGray i) :=
  ⟨opcodeTable[9], List.getElem_mem _, by
    rw [encode, ctl_ofWords]; exact mask_ctlOf .Z 0x20 _ _ _ (by omega) (by decide) (by simp) (by simp) (by simp)⟩

theorem EncodesItsRow.puIgray (g : Word) : EncodesItsRow.Statement (.puIgray g) :=
  ⟨opcodeTable[10], List.getElem_mem _, by
    rw [encode, ctl_ofWords]; exact mask_ctlOf .Z 0x21 _ _ _ (by omega) (by decide) (by simp) (by simp) (by simp)⟩

theorem EncodesItsRow.puRotl (amount : Nat) (v : Word) : EncodesItsRow.Statement (.puRotl amount v) :=
  ⟨opcodeTable[11], List.getElem_mem _, by
    rw [encode, ctl_ofWords]; exact mask_ctlOf .A 0x22 _ _ _ (by omega) (by decide) (by simp) (by simp) (by simp)⟩

theorem EncodesItsRow.puRotr (amount : Nat) (v : Word) : EncodesItsRow.Statement (.puRotr amount v) :=
  ⟨opcodeTable[12], List.getElem_mem _, by
    rw [encode, ctl_ofWords]; exact mask_ctlOf .A 0x23 _ _ _ (by omega) (by decide) (by simp) (by simp) (by simp)⟩

theorem EncodesItsRow.puBitw (index : Nat) (v : Word) : EncodesItsRow.Statement (.puBitw index v) :=
  ⟨opcodeTable[13], List.getElem_mem _, by
    rw [encode, ctl_ofWords]; exact mask_ctlOf .A 0x24 _ _ _ (by omega) (by decide) (by simp) (by simp) (by simp)⟩

theorem EncodesItsRow.puBitb (axis : Nat) (index : Nat) : EncodesItsRow.Statement (.puBitb axis index) :=
  ⟨opcodeTable[14], List.getElem_mem _, by
    rw [encode, ctl_ofWords]; exact mask_ctlOf .AB 0x25 _ _ _ (by omega) (by decide) (by simp) (by simp) (by simp)⟩

theorem EncodesItsRow.puPopc (v : Word) : EncodesItsRow.Statement (.puPopc v) :=
  ⟨opcodeTable[15], List.getElem_mem _, by
    rw [encode, ctl_ofWords]; exact mask_ctlOf .Z 0x26 _ _ _ (by omega) (by decide) (by simp) (by simp) (by simp)⟩

theorem EncodesItsRow.puEntry (i : Word) : EncodesItsRow.Statement (.puEntry i) :=
  ⟨opcodeTable[16], List.getElem_mem _, by
    rw [encode, ctl_ofWords]; exact mask_ctlOf .Z 0x27 _ _ _ (by omega) (by decide) (by simp) (by simp) (by simp)⟩

theorem EncodesItsRow.puDir (n : Nat) (i : Word) : EncodesItsRow.Statement (.puDir n i) :=
  ⟨opcodeTable[17], List.getElem_mem _, by
    rw [encode, ctl_ofWords]; exact mask_ctlOf .A 0x28 _ _ _ (by omega) (by decide) (by simp) (by simp) (by simp)⟩

theorem EncodesItsRow.puXmask (n : Nat) (level : Nat) (d : Nat) : EncodesItsRow.Statement (.puXmask n level d) :=
  ⟨opcodeTable[18], List.getElem_mem _, by
    rw [encode, ctl_ofWords]; exact mask_ctlOf .ABC 0x29 _ _ _ (by omega) (by decide) (by simp) (by simp) (by simp)⟩

theorem EncodesItsRow.puGcr (n : Nat) (mu : Word) (w : Word) : EncodesItsRow.Statement (.puGcr n mu w) :=
  ⟨opcodeTable[19], List.getElem_mem _, by
    rw [encode, ctl_ofWords]; exact mask_ctlOf .A 0x2a _ _ _ (by omega) (by decide) (by simp) (by simp) (by simp)⟩

theorem EncodesItsRow.hxSetn (n : Nat) : EncodesItsRow.Statement (.hxSetn n) :=
  ⟨opcodeTable[20], List.getElem_mem _, by
    rw [encode, ctl_ofWords]; exact mask_ctlOf .A 0x30 _ _ _ (by omega) (by decide) (by simp) (by simp) (by simp)⟩

theorem EncodesItsRow.hxSetw (axis : Nat) (width : Nat) : EncodesItsRow.Statement (.hxSetw axis width) :=
  ⟨opcodeTable[21], List.getElem_mem _, by
    rw [encode, ctl_ofWords]; exact mask_ctlOf .AB 0x31 _ _ _ (by omega) (by decide) (by simp) (by simp) (by simp)⟩

theorem EncodesItsRow.hxLdp (axis : Nat) (nbytes : Nat) (bytes : Word) : EncodesItsRow.Statement (.hxLdp axis nbytes bytes) :=
  ⟨opcodeTable[22], List.getElem_mem _, by
    rw [encode, ctl_ofWords]; exact mask_ctlOf .AB 0x32 _ _ _ (by omega) (by decide) (by simp) (by simp) (by simp)⟩

theorem EncodesItsRow.hxInit : EncodesItsRow.Statement .hxInit :=
  ⟨opcodeTable[23], List.getElem_mem _, by
    rw [encode, ctl_ofWords]; exact mask_ctlOf .Z 0x33 _ _ _ (by omega) (by decide) (by simp) (by simp) (by simp)⟩

theorem EncodesItsRow.hxStep : EncodesItsRow.Statement .hxStep :=
  ⟨opcodeTable[24], List.getElem_mem _, by
    rw [encode, ctl_ofWords]; exact mask_ctlOf .Z 0x34 _ _ _ (by omega) (by decide) (by simp) (by simp) (by simp)⟩

theorem EncodesItsRow.hxRun : EncodesItsRow.Statement .hxRun :=
  ⟨opcodeTable[25], List.getElem_mem _, by
    rw [encode, ctl_ofWords]; exact mask_ctlOf .Z 0x35 _ _ _ (by omega) (by decide) (by simp) (by simp) (by simp)⟩

theorem EncodesItsRow.hxAbort : EncodesItsRow.Statement .hxAbort :=
  ⟨opcodeTable[26], List.getElem_mem _, by
    rw [encode, ctl_ofWords]; exact mask_ctlOf .Z 0x36 _ _ _ (by omega) (by decide) (by simp) (by simp) (by simp)⟩

theorem EncodesItsRow.csRd (address : Nat) : EncodesItsRow.Statement (.csRd address) :=
  ⟨opcodeTable[27], List.getElem_mem _, by
    rw [encode, ctl_ofWords]; exact mask_ctlOfImm 0x40 _ (by omega)⟩

end Sys2Proof.Laws
end

