-- ==== Sys2Proof/Tests/Slice0.lean ====
section
/-! SUPPORT. Tests of the model against the words and vectors of spec/ (95_test_vectors.md T<n>, and the examples of the
command rules), the well-formedness smoke test, and for every statement with hypotheses a witness that meets them. -/

namespace Sys2Proof.Tests

open Sys2Proof Sys2Proof.Machine Sys2Proof.Safety

/-! ## Small states -/

/-- The state a command answers. -/
def after (i : Instr) (s : State) : Option State :=
  match exec i s with
  | .next t => some t
  | .fault _ => none
  | .refused _ => none

/-- The last response and the buffer a command leaves. -/
def leaves (i : Instr) (s : State) : Option (Option Response × Memory) :=
  (after i s).map (fun t => (t.rsps.getLast?, t.B))

/-- The last response of a command. -/
def replies (i : Instr) (s : State) : Option (Option Response) := (after i s).map (fun t => t.rsps.getLast?)

/-- An idle block with a buffer. -/
def buffer (size : BitVec 16) (bytes : Memory) : State := { State.reset with S := size, BV := true, B := bytes }

/-- T44's operands: points 5 and 0x15, widths 3 and 5. -/
def ready : State :=
  (((((State.setWidth { State.reset with N := 2 } 0 3).setWidth 1 5).setPoint 0 5).setPoint 1 0x15).setPlen 0 1).setPlen
    1 1

/-- T44 after hx.init. -/
def running : State := ready.startComputation

/-- One axis of one bit: the first level is the last (T50). -/
def lastLevel : State :=
  (((State.setWidth { State.reset with N := 1 } 0 1).setPoint 0 1).setPlen 0 1).startComputation

/-- T26's widths. -/
def widths3 : State := ((State.reset.setWidth 0 8).setWidth 1 16).setWidth 2 4

/-- T49's last row: three axes of 32 bits in an instance with BUF_BYTES = 8. -/
def cramped : State :=
  (((((State.setWidth { State.resetOf ⟨8⟩ with N := 3 } 0 32).setWidth 1 32).setWidth 2 32).setPlen 0 4).setPlen 1 4).setPlen
    2 4

/-- A reset state to which a packet is offered. -/
def offered (p : Packet) : State := State.reset.offer p

/-- The state after one step, its last response and what is still offered. -/
def stepSays (s : State) : Option (Option Response × List HostEvent) :=
  match step s with
  | .next t => some (t.rsps.getLast?, t.inputs)
  | .fault _ => none
  | .refused _ => none

/-! ## Well-formedness smoke test: an ill-formed term for each check -/

theorem test_wf_refuses_wide_a : (Instr.bbShl 256).wellFormed = false := by decide
theorem test_wf_refuses_wide_b : (Instr.hxSetw 0 256).wellFormed = false := by decide
theorem test_wf_refuses_wide_c : (Instr.puXmask 3 4 256).wellFormed = false := by decide
theorem test_wf_refuses_wide_imm16 : (Instr.bbCreate 65536).wellFormed = false := by decide
theorem test_wf_accepts_out_of_domain : (Instr.bbShl 9).wellFormed = true := by decide

/-! ## Decoding: words written out from R61 to R64, most of them in 95_test_vectors.md -/

theorem test_decode_bbCreate : decode 0x000000000000000000100010#96 = .ok (.bbCreate 16) := by decide
theorem test_decode_bbClear : decode 0x000000000000000000000011#96 = .ok .bbClear := by decide
theorem test_decode_bbShl : decode 0x000000000000000000000312#96 = .ok (.bbShl 3) := by decide
theorem test_decode_bbOrw : decode 0x00000000FFFFFFFF00000013#96 = .ok (.bbOrw 0xFFFFFFFF) := by decide
theorem test_decode_bbXorw : decode 0x00000000FF00FF0000000014#96 = .ok (.bbXorw 0xFF00FF00) := by decide
theorem test_decode_bbSetbit : decode 0x0000000000000000007D0015#96 = .ok (.bbSetbit 125) := by decide
theorem test_decode_bbRd64 : decode 0x000000000000000000000016#96 = .ok .bbRd64 := by decide
theorem test_decode_bbRdb : decode 0x0000000000000000000F0017#96 = .ok (.bbRdb 15) := by decide
theorem test_decode_bbRelease : decode 0x000000000000000000000018#96 = .ok .bbRelease := by decide
theorem test_decode_puGray : decode 0x00000000DEADBEEF00000020#96 = .ok (.puGray 0xDEADBEEF) := by decide
theorem test_decode_puIgray : decode 0x00000000B1FB619800000021#96 = .ok (.puIgray 0xB1FB6198) := by decide
theorem test_decode_puRotl : decode 0x000000000000001400000222#96 = .ok (.puRotl 2 0x14) := by decide
theorem test_decode_puRotr : decode 0x000000000000000100000123#96 = .ok (.puRotr 1 1) := by decide
theorem test_decode_puBitw : decode 0x000000008000000000001F24#96 = .ok (.puBitw 31 0x80000000) := by decide
theorem test_decode_puBitb : decode 0x0000000000000000000F0525#96 = .ok (.puBitb 5 15) := by decide
theorem test_decode_puPopc : decode 0x000000000000008F00000026#96 = .ok (.puPopc 0x8F) := by decide
theorem test_decode_puEntry : decode 0x00000000FFFFFFFE00000027#96 = .ok (.puEntry 0xFFFFFFFE) := by decide
theorem test_decode_puDir : decode 0x000000008000000000002028#96 = .ok (.puDir 32 0x80000000) := by decide
theorem test_decode_puXmask : decode 0x000000000000000001040329#96 = .ok (.puXmask 3 4 1) := by decide
theorem test_decode_puGcr : decode 0x000000070000000F0000022A#96 = .ok (.puGcr 2 0xF 7) := by decide
theorem test_decode_hxSetn : decode 0x000000000000000000000230#96 = .ok (.hxSetn 2) := by decide
theorem test_decode_hxSetw : decode 0x000000000000000000080131#96 = .ok (.hxSetw 1 8) := by decide
theorem test_decode_hxLdp : decode 0x00000000FFFF800100020532#96 = .ok (.hxLdp 5 2 0xFFFF8001) := by decide
theorem test_decode_hxInit : decode 0x000000000000000000000033#96 = .ok .hxInit := by decide
theorem test_decode_hxStep : decode 0x000000000000000000000034#96 = .ok .hxStep := by decide
theorem test_decode_hxRun : decode 0x000000000000000000000035#96 = .ok .hxRun := by decide
theorem test_decode_hxAbort : decode 0x000000000000000000000036#96 = .ok .hxAbort := by decide
theorem test_decode_csRd : decode 0x000000000000000002050040#96 = .ok (.csRd 0x205) := by decide

/-- T51: unused word operands are ignored. -/
theorem test_decode_ignores_opB : decode 0xFFFFFFFF0000000500000020#96 = .ok (.puGray 5) := by decide
/-- T51: an undefined opcode. -/
theorem test_decode_undefined : decode 0x000000000000000000000019#96 = .error .undefinedOpcode := by decide
/-- T51: hx.setn 2 with b = 1. -/
theorem test_decode_reserved_b : decode 0x000000000000000000010230#96 = .error .reservedField := by decide
/-- T51: bb.create 4 with a = 1. -/
theorem test_decode_reserved_a : decode 0x000000000000000000040110#96 = .error .reservedField := by decide

/-- The match and mask columns of spec/opcode_table.json, all 28 rows. -/
theorem test_table_matches_the_spec : opcodeTable.map (fun r => (r.mnemonic, r.opcode, r.format.mask)) =
    [("bb.create", 0x10, 0x0000FFFF#32), ("bb.clear", 0x11, 0xFFFFFFFF#32), ("bb.shl", 0x12, 0xFFFF00FF#32),
     ("bb.orw", 0x13, 0xFFFFFFFF#32), ("bb.xorw", 0x14, 0xFFFFFFFF#32), ("bb.setbit", 0x15, 0x0000FFFF#32),
     ("bb.rd64", 0x16, 0xFFFFFFFF#32), ("bb.rdb", 0x17, 0x0000FFFF#32), ("bb.release", 0x18, 0xFFFFFFFF#32)] ++
    [("pu.gray", 0x20, 0xFFFFFFFF#32), ("pu.igray", 0x21, 0xFFFFFFFF#32), ("pu.rotl", 0x22, 0xFFFF00FF#32),
     ("pu.rotr", 0x23, 0xFFFF00FF#32), ("pu.bitw", 0x24, 0xFFFF00FF#32), ("pu.bitb", 0x25, 0xFF0000FF#32),
     ("pu.popc", 0x26, 0xFFFFFFFF#32), ("pu.entry", 0x27, 0xFFFFFFFF#32), ("pu.dir", 0x28, 0xFFFF00FF#32),
     ("pu.xmask", 0x29, 0x000000FF#32), ("pu.gcr", 0x2A, 0xFFFF00FF#32)] ++
    [("hx.setn", 0x30, 0xFFFF00FF#32), ("hx.setw", 0x31, 0xFF0000FF#32), ("hx.ldp", 0x32, 0xFF0000FF#32),
     ("hx.init", 0x33, 0xFFFFFFFF#32), ("hx.step", 0x34, 0xFFFFFFFF#32), ("hx.run", 0x35, 0xFFFFFFFF#32),
     ("hx.abort", 0x36, 0xFFFFFFFF#32), ("cs.rd", 0x40, 0x0000FFFF#32)] := by decide

/-- A table word of the row bb.shl, as the host numbers it. -/
theorem test_decodeTableWord : decodeTableWord 32 0x00000712 = some (.bbShl 7) := by decide

/-! ## The step -/

/-- T51 and P4: the all-zero packet is answered ILLEGAL. -/
theorem test_step_illegal : stepSays (offered 0) = some (some ⟨.illegal, 0⟩, []) := by decide
/-- T30: bb.create 4 as the first command after reset. -/
theorem test_step_create : stepSays (State.reset.withFetchWord 32 0x00040010) = some (some ⟨.ok, 4⟩, []) := by decide
/-- R190: a reset between two commands. -/
theorem test_step_reset :
    (match step { running with inputs := [.rst] } with | .next t => some t | _ => none) = some State.reset := by decide

/-! ## Commands: at most two tests each -/

/-- T30. -/
theorem test_create_clamps : leaves (.bbCreate 3) (buffer 8 [(1, 2)]) = some (some ⟨.ok, 4⟩, []) := by decide
/-- T30. -/
theorem test_create_too_big :
    leaves (.bbCreate 129) (buffer 8 [(1, 2)]) = some (some ⟨.allocationFailure, 0⟩, [(1, 2)]) := by decide
/-- R87. -/
theorem test_clear : leaves .bbClear (buffer 4 [(0, 0x61), (1, 0x49)]) = some (some ⟨.ok, 0⟩, []) := by decide
/-- T31. -/
theorem test_shl_carries_and_drops : leaves (.bbShl 1) (buffer 4 [(0, 0x01), (2, 0xC0), (3, 0x80)]) =
    some (some ⟨.ok, 0⟩, [(0, 0x02), (2, 0x80), (3, 0x01)]) := by decide
/-- T50: the order of the checks. -/
theorem test_shl_checks_the_buffer_first : replies (.bbShl 9) State.reset = some (some ⟨.noBuffer, 0⟩) := by decide
/-- T32. -/
theorem test_orw : leaves (.bbOrw 0x11223344) (buffer 6 []) =
    some (some ⟨.ok, 0⟩, [(2, 0x44), (3, 0x33), (4, 0x22), (5, 0x11)]) := by decide
/-- T32. -/
theorem test_xorw : leaves (.bbXorw 0xFF00FF00) (buffer 6 [(2, 0x44), (3, 0x33), (4, 0x22), (5, 0x11)]) =
    some (some ⟨.ok, 0⟩, [(1, 0xFF), (2, 0x44), (3, 0xCC), (4, 0x22), (5, 0x11)]) := by decide
/-- R91. -/
theorem test_setbit : leaves (.bbSetbit 10) (buffer 8 [(1, 0x03)]) = some (some ⟨.ok, 0⟩, [(1, 0x07)]) := by decide
/-- T33. -/
theorem test_setbit_range : replies (.bbSetbit 64) (buffer 8 []) = some (some ⟨.range, 0⟩) := by decide
/-- T33. -/
theorem test_rd64 : replies .bbRd64 (buffer 8 [(0, 4), (1, 3), (2, 2), (3, 1), (4, 0xBE), (5, 0xBA), (6, 0xFE), (7, 0xCA)]) =
    some (some ⟨.ok, 0xCAFEBABE01020304⟩) := by decide
/-- T50: reads are allowed while a computation is in progress. -/
theorem test_rd64_small_buffer : replies .bbRd64 running = some (some ⟨.range, 0⟩) := by decide
/-- T33. -/
theorem test_rdb : replies (.bbRdb 7) (buffer 8 [(7, 0xDA)]) = some (some ⟨.ok, 0xDA⟩) := by decide
/-- T33. -/
theorem test_rdb_range : replies (.bbRdb 8) (buffer 8 [(7, 0xDA)]) = some (some ⟨.range, 0⟩) := by decide
/-- T34. -/
theorem test_release : (after .bbRelease (buffer 8 [(7, 1)])).map (fun t => (t.B, t.S, t.BV)) = some ([], 0, false) := by
  decide
/-- T20. -/
theorem test_gray : replies (.puGray 0xDEADBEEF) State.reset = some (some ⟨.ok, 0xB1FB6198⟩) := by decide
/-- T20. -/
theorem test_igray : replies (.puIgray 0x12345678) State.reset = some (some ⟨.ok, 0x1C279BAF⟩) := by decide
/-- T21. -/
theorem test_rotl : replies (.puRotl 4 0x12345678) State.reset = some (some ⟨.ok, 0x23456781⟩) := by decide
/-- T21. -/
theorem test_rotl_by_32 : replies (.puRotl 32 1) State.reset = some (some ⟨.invalidArgument, 0⟩) := by decide
/-- T5. -/
theorem test_rotr : replies (.puRotr 1 1) State.reset = some (some ⟨.ok, 0x80000000⟩) := by decide
/-- T21. -/
theorem test_rotr_by_zero : replies (.puRotr 0 0x80000001) State.reset = some (some ⟨.ok, 0x80000001⟩) := by decide
/-- T22. -/
theorem test_bitw : replies (.puBitw 31 0x80000000) State.reset = some (some ⟨.ok, 1⟩) := by decide
/-- T22. -/
theorem test_bitb : replies (.puBitb 5 15) (State.reset.setPoint 5 0x8001) = some (some ⟨.ok, 1⟩) := by decide
/-- T23. -/
theorem test_popc : replies (.puPopc 0xF0F0F0F0) State.reset = some (some ⟨.ok, 16⟩) := by decide
/-- T7. -/
theorem test_entry_minus_six : replies (.puEntry 0xFFFFFFFA) State.reset = some (some ⟨.ok, 0x80000004⟩) := by decide
/-- T24. -/
theorem test_entry_wraps : replies (.puEntry 0x80000000) State.reset = some (some ⟨.ok, 0x40000001⟩) := by decide
/-- T25. -/
theorem test_dir : replies (.puDir 32 0x80000000) State.reset = some (some ⟨.ok, 31⟩) := by decide
/-- T25. -/
theorem test_dir_no_axis : replies (.puDir 0 6) State.reset = some (some ⟨.invalidArgument, 0⟩) := by decide
/-- T26. -/
theorem test_xmask : replies (.puXmask 3 4 1) widths3 = some (some ⟨.ok, 5⟩) := by decide
/-- T26. -/
theorem test_xmask_bad_d : replies (.puXmask 3 4 3) widths3 = some (some ⟨.invalidArgument, 0⟩) := by decide
/-- T27. -/
theorem test_gcr : replies (.puGcr 8 0xF0 0xA5) State.reset = some (some ⟨.ok, 0xA⟩) := by decide
/-- T27. -/
theorem test_gcr_ignores_high_mask : replies (.puGcr 2 0xF 7) State.reset = some (some ⟨.ok, 3⟩) := by decide
/-- T49. -/
theorem test_setn_any_value : (after (.hxSetn 255) State.reset).map (fun t => t.N) = some 255 := by decide
/-- P3, line 8. -/
theorem test_setw_busy : replies (.hxSetw 0 4) running = some (some ⟨.busy, 0⟩) := by decide
/-- R132. -/
theorem test_setw : (after (.hxSetw 31 200) State.reset).map (fun t => (t.width 31, t.width 30)) = some (200, 0) := by
  decide
/-- R133. -/
theorem test_ldp : (after (.hxLdp 5 2 0xFFFF8001) State.reset).map (fun t => (t.point 5, t.plen 5)) = some (0x8001, 2) := by
  decide
/-- T49. -/
theorem test_ldp_five_bytes : replies (.hxLdp 0 5 1) State.reset = some (some ⟨.invalidArgument, 0⟩) := by decide
/-- P3, lines 6 and 7. -/
theorem test_init : (after .hxInit ready).map (fun t => (t.S, t.LVL, t.statusWord, t.rsps)) =
    some (4, 4, 3, [⟨.ok, 4⟩]) := by decide
/-- T49. -/
theorem test_init_small_capacity : replies .hxInit cramped = some (some ⟨.allocationFailure, 0⟩) := by decide
/-- T44, level 4. -/
theorem test_step_level :
    (after .hxStep running).map (fun t => [t.MU, t.L, t.T, t.WV, t.R, t.E, t.D.zeroExtend 32, t.LVL.zeroExtend 32]) =
      some [2, 2, 2, 3, 1, 3, 1, 3] := by decide
/-- T50: level 0 ends the computation. -/
theorem test_step_last_level : (after .hxStep lastLevel).map (fun t => (t.ACT, t.rsps, t.B)) =
    some (false, [⟨.ok, 1⟩], [(0, 1)]) := by decide +kernel
/-- T49: an axis left at reset. -/
theorem test_run_invalid : replies .hxRun { State.reset with N := 1 } = some (some ⟨.invalidArgument, 0⟩) := by decide
/-- P3, lines 23 and 24. -/
theorem test_abort : (after .hxAbort running).map (fun t => (t.statusWord, t.LVL)) = some (1, 4) := by decide
/-- P3, line 16. -/
theorem test_csRd_status : replies (.csRd 0x000) running = some (some ⟨.ok, 3⟩) := by decide
/-- T52. -/
theorem test_csRd_unmapped : replies (.csRd 0x120) State.reset = some (some ⟨.range, 0⟩) := by decide

/-! ## The assembler -/

/-- R67: the packet the rule shows. -/
theorem test_assemble_ldp : assemble "hx.ldp 1, 1, 0x3C" = some [0x000000000000003C00010132#96] := by decide
/-- R67: a raw packet and a comment. -/
theorem test_assemble_raw : assemble ".packet 0x00000111, 0, 0 # illegal" = some [0x000000000000000000000111#96] := by
  decide
/-- R68: hx.point 1, 8, 0x3C is P2's lines 2 and 4. -/
theorem test_assemble_point : assemble "hx.point 1, 8, 0x3C" =
    some [0x000000000000000000080131#96, 0x000000000000003C00010132#96] := by decide
/-- P1: bb.setbyte 14, 0x42 is lines 5 and 6. -/
theorem test_expand_setbyte : Pseudo.expand (.bbSetbyte 14 0x42) = [.bbSetbit 113, .bbSetbit 118] := by decide

/-! ## Witnesses: for each statement with hypotheses, a state and operands that meet them -/

theorem ready_config : ConfigOk ready := ⟨by decide, by decide, by decide⟩

theorem ready_canStart : CanStart ready := ⟨by decide, ready_config, by decide⟩

theorem cramped_config : ConfigOk cramped := ⟨by decide, by decide, by decide⟩

theorem running_inv : Inv running where
  capacity := by decide
  canonical := Memory.wf_nil
  size := fun _ => by decide
  noBuffer := fun h => absurd h (by decide)
  outside := fun _ _ => rfl
  lengths := by decide
  points := by decide
  running := fun _ =>
    ⟨by decide, by decide, by decide, by decide, by decide, by decide, by decide⟩

theorem lastLevel_inv : Inv lastLevel where
  capacity := by decide
  canonical := Memory.wf_nil
  size := fun _ => by decide
  noBuffer := fun h => absurd h (by decide)
  outside := fun _ _ => rfl
  lengths := by decide
  points := by decide
  running := fun _ =>
    ⟨by decide, by decide, by decide, by decide, by decide, by decide, by decide⟩

theorem witness_DecodeEncodeRoundTrip : (Instr.puXmask 255 0 255).wellFormed = true := by decide

theorem witness_DecodedPacketKeepsItsFields : decode 0xFFFFFFFF0000000500000020#96 = .ok (.puGray 5) := by decide

theorem witness_IllegalPacketsAreAnsweredIllegal :
    (offered 0x41#96).inputs = .packet 0x41#96 :: [] ∧ IllegalPacket 0x41#96 ∧ IllegalPacket 0x0F#96 ∧
      IllegalPacket 0x111#96 ∧ ¬ IllegalPacket 0x40#96 ∧ ¬ IllegalPacket 0x10#96 := by
  refine ⟨by decide, ?_, ?_, ?_, ?_, ?_⟩ <;> decide

theorem witness_StepRunsTheDecodedCommand :
    (offered 0x35#96).inputs = .packet 0x35#96 :: [] ∧ decode 0x35#96 = .ok .hxRun := by decide

theorem witness_IdleStepKeepsAllState : running.inputs = [] := by decide

theorem witness_ResetEventZeroesTheState : ({ running with inputs := [.rst] } : State).inputs = .rst :: [] := by decide

theorem witness_EveryPacketIsAnsweredOnce : (offered 0).inputs = .packet 0 :: [] := by decide

theorem witness_StatusIsTheFirstFailingCheck : (offered 0).inputs = .packet 0 :: [] ∧ IllegalPacket 0 := by decide

theorem witness_RefusalChangesNothing :
    exec .hxStep ready = .next (refused ready .sequence) ∧
      (refused ready .sequence).rsps = ready.rsps ++ [⟨.sequence, 0⟩] ∧ Status.sequence ≠ .ok :=
  ⟨rfl, rfl, by decide⟩

theorem witness_AllocationFailsExactlyBeyondCapacity :
    ready.ACT = false ∧ ConfigOk ready ∧ 128 ≤ ready.cfg.bufBytes ∧ cramped.ACT = false ∧ ConfigOk cramped ∧
      cramped.cfg.bufBytes < cramped.sizeNeeded :=
  ⟨by decide, ready_config, by decide, by decide, cramped_config, by decide⟩

theorem witness_InterlockProtectsTheComputation :
    running.ACT = true ∧ interlocked (.hxSetw 0 4) = true ∧ Instr.csRd 0 ≠ .hxStep ∧ Instr.csRd 0 ≠ .hxAbort := by decide

theorem witness_ReadsChangeNothingAndSomeWritesRepeat :
    readOnly (.csRd 0) = true ∧ idempotent .hxAbort = true ∧ Inv running :=
  ⟨by decide, by decide, running_inv⟩

theorem witness_OnlyTheNamedCommandsWriteEachRegister :
    exec .hxAbort running = .next (answered { running with ACT := false } 0) ∧
      (answered { running with ACT := false } 0).ACT ≠ running.ACT :=
  ⟨rfl, by decide⟩

theorem witness_EveryStepKeepsTheStateInvariant : Inv running := running_inv

theorem witness_CreateMakesAZeroBuffer :
    running.ACT = true ∧ ready.ACT = false ∧ max 128 4 ≤ ready.cfg.bufBytes ∧ max 0 4 ≤ ready.cfg.bufBytes ∧
      ready.cfg.bufBytes < max 129 4 ∧ 129 ≤ 65535 := by decide

theorem witness_ClearZeroesTheBuffer :
    running.ACT = true ∧ ready.ACT = false ∧ ready.BV = false ∧ (buffer 4 []).ACT = false ∧ (buffer 4 []).BV = true := by
  decide

theorem witness_ShiftMovesEveryBitUp :
    running.ACT = true ∧ ready.ACT = false ∧ ready.BV = false ∧ (buffer 4 []).ACT = false ∧ (buffer 4 []).BV = true ∧
      8 ≤ 8 ∧ 7 < 8 ∧ 31 < 8 * (buffer 4 []).S.toNat ∧ (buffer 4 []).S.toNat ≤ 4 := by decide

theorem witness_ShiftIsMultiplicationModuloTheWidth : 7 < 8 := by decide

theorem witness_WideShiftIsMultiplicationModuloTheWidth : 8 * 4 ≤ 32 ∧ 3 < 4 := by decide

theorem witness_OrWordWritesTheHighestFourBytes :
    running.ACT = true ∧ ready.ACT = false ∧ ready.BV = false ∧ (buffer 4 []).ACT = false ∧ (buffer 4 []).BV = true ∧
      4 ≤ (buffer 4 []).S.toNat ∧ 0 < (buffer 5 []).S.toNat - 4 := by decide

theorem witness_XorWordWritesTheLowestFourBytes :
    running.ACT = true ∧ ready.ACT = false ∧ ready.BV = false ∧ (buffer 4 [(3, 9)]).ACT = false ∧
      (buffer 4 [(3, 9)]).BV = true ∧ (buffer 4 [(3, 9)]).B.wf := by decide

theorem witness_SetBitSetsExactlyThatBit :
    running.ACT = true ∧ ready.ACT = false ∧ ready.BV = false ∧ (buffer 4 []).ACT = false ∧ (buffer 4 []).BV = true ∧
      31 < 8 * (buffer 4 []).S.toNat ∧ 8 * (buffer 4 []).S.toNat ≤ 32 := by decide

theorem witness_Read64ReturnsTheFirstEightBytes :
    ready.BV = false ∧ (buffer 7 []).BV = true ∧ (buffer 7 []).S.toNat < 8 ∧ (buffer 8 []).BV = true ∧
      8 ≤ (buffer 8 []).S.toNat := by decide

theorem witness_ReadByteReturnsThatByte :
    ready.BV = false ∧ (buffer 4 []).BV = true ∧ (buffer 4 []).S.toNat ≤ 4 ∧ 3 < (buffer 4 []).S.toNat := by decide

theorem witness_ReleaseLeavesNoBuffer :
    running.ACT = true ∧ ready.ACT = false ∧ ready.BV = false ∧ (buffer 4 []).ACT = false ∧ (buffer 4 []).BV = true := by
  decide

theorem witness_GrayAndInverseGrayResults : 30 < 31 ∧ 31 < 32 := by decide

theorem witness_RotationsMoveEveryBit : 32 ≤ 32 ∧ 31 < 32 ∧ 0 < 32 := by decide

theorem witness_BitReadsReturnThatBit : 32 ≤ 32 ∧ 31 < 32 := by decide

theorem witness_EntryIsTheGrayCodeOfTheFloor :
    (0x80000000 : Word) ≠ 0 ∧ (0x7FFFFFFE : Word) = BitVec.ofInt 32 (2 * (((0x80000000 : Word).toInt - 1) / 2)) := by
  decide

theorem witness_DirectionCountsSetBitsModuloN :
    0 < 1 ∧ 32 < 33 ∧ 1 ≤ 1 ∧ 32 ≤ 32 ∧ (6 : Word) ≠ 0 ∧ (6 : Word).toNat % 2 = 0 ∧ (7 : Word).toNat % 2 = 1 := by decide

theorem witness_MaskSaysWhichAxesAreActive : (3 ≤ 3 ∧ 32 < 33 ∧ 0 < 1) ∧ 1 ≤ 32 ∧ 31 < 32 := by decide

theorem witness_RankPacksTheSelectedBits : 32 < 33 ∧ 32 ≤ 32 ∧ 31 < 32 ∧ (0xFFFFFFFF : Word).getLsbD 31 = true := by decide

theorem witness_SetNWritesN : 255 ≤ 255 ∧ running.ACT = true ∧ ready.ACT = false := by decide

theorem witness_SetWidthWritesOneRegister :
    255 ≤ 255 ∧ running.ACT = true ∧ ready.ACT = false ∧ 32 ≤ 32 ∧ 31 < 32 := by decide

theorem witness_LoadPointKeepsTheSuppliedBytes :
    running.ACT = true ∧ ready.ACT = false ∧ (32 ≤ 32 ∨ 4 < 4) ∧ (32 ≤ 0 ∨ 4 < 5) ∧ 31 < 32 ∧ 4 ≤ 4 := by decide

theorem witness_ConfigurationQuantities : 1 ≤ ready.N.toNat ∧ ready.N.toNat ≤ 32 ∧ ConfigOk ready :=
  ⟨by decide, by decide, ready_config⟩

theorem witness_InitStartsAComputation :
    running.ACT = true ∧ State.reset.ACT = false ∧ ¬ ConfigOk State.reset ∧ cramped.ACT = false ∧ ConfigOk cramped ∧
      cramped.cfg.bufBytes < cramped.sizeNeeded ∧ ready.ACT = false ∧ ConfigOk ready ∧
      ready.sizeNeeded ≤ ready.cfg.bufBytes :=
  ⟨by decide, by decide, fun h => absurd h.axes (by decide), by decide, cramped_config, by decide, by decide,
    ready_config, by decide⟩

theorem witness_LevelMaskAtFirstAndLastLevel : ConfigOk ready ∧ ready.D.toNat < ready.N.toNat :=
  ⟨ready_config, by decide⟩

theorem witness_StepExecutesOneLevel :
    ready.ACT = false ∧ (Inv running ∧ running.ACT = true ∧ running.LVL ≠ 0) ∧
      (Inv lastLevel ∧ lastLevel.ACT = true ∧ lastLevel.LVL = 0) :=
  ⟨by decide, ⟨running_inv, by decide, by decide⟩, ⟨lastLevel_inv, by decide, by decide⟩⟩

theorem witness_RunCompletesInOneCommand :
    running.ACT = true ∧ State.reset.ACT = false ∧ ¬ ConfigOk State.reset ∧ cramped.ACT = false ∧ ConfigOk cramped ∧
      cramped.cfg.bufBytes < cramped.sizeNeeded ∧ CanStart ready :=
  ⟨by decide, by decide, fun h => absurd h.axes (by decide), by decide, cramped_config, by decide, ready_canStart⟩

theorem witness_RunEqualsInitThenSteps : CanStart ready := ready_canStart

theorem witness_ExactlyMaxWidthStepsFinish : CanStart ready ∧ 5 ≤ ready.maxWidth ∧ 1 ≤ 5 :=
  ⟨ready_canStart, by decide, by decide⟩

theorem wide_canStart : CanStart { cramped with cfg := ⟨12⟩ } :=
  ⟨by decide, ⟨by decide, by decide, by decide⟩, by decide⟩

theorem witness_BufferHoldsTheIndexAfterRun :
    (CanStart ready ∧ ready.totalWidth ≤ 32) ∧
      (CanStart { cramped with cfg := ⟨12⟩ } ∧ 32 < State.totalWidth { cramped with cfg := ⟨12⟩ }) :=
  ⟨⟨ready_canStart, by decide⟩, ⟨wide_canStart, by decide⟩⟩

theorem witness_ComputationDependsOnItsOperandsOnly :
    CanStart ready ∧ CanStart (ready.setWidth 2 200) ∧ (ready.setWidth 2 200).N = ready.N ∧
      (∀ j, j < ready.N.toNat →
        (ready.setWidth 2 200).width j = ready.width j ∧ (ready.setWidth 2 200).point j = ready.point j) :=
  ⟨ready_canStart, ⟨by decide, ⟨by decide, by decide, by decide⟩, by decide⟩, by decide, by decide⟩

theorem witness_RegisterReadMap : 31 < 32 ∧ ¬ mapped 0x00B ∧ ¬ mapped 0x0FF ∧ ¬ mapped 0x120 ∧ ¬ mapped 0xFFFF := by decide

theorem witness_PseudoShiftIsAWideShift : (buffer 4 []).ACT = false ∧ (buffer 4 []).BV = true := by decide

theorem witness_PseudoSetByteWritesAZeroByte :
    (buffer 4 []).ACT = false ∧ (buffer 4 []).BV = true ∧ 3 < (buffer 4 []).S.toNat ∧ 255 ≤ 255 ∧
      (buffer 4 []).byte 3 = 0 := by decide

theorem witness_PseudoPointLoadsOneAxis : ready.ACT = false ∧ 31 < 32 ∧ 1 ≤ 32 ∧ 32 ≤ 32 ∧ 0xFFFFFFFF < 2 ^ 32 := by
  decide

end Sys2Proof.Tests
end

section
/-! SUPPORT. What any command can do, said once: a command is its checks, in the order of R178, and its effect
(`exec_eq_complete`), so it answers a refusal or its effect (`exec_cases`), and a step is idle, a reset, a refusal or an
effect (`step_next_cases`). -/

namespace Sys2Proof.Machine

open Sys2Proof.Safety

/-! ## A command's checks and its effect -/

/-- The checks of a command (R171 to R176), in the order of R178. -/
def checksOf (i : Instr) (s : State) : List (Bool × Status) :=
  match i with
  | .bbCreate size => [s.busy, s.tooBig (createSize size)]
  | .bbClear | .bbOrw _ | .bbXorw _ | .bbRelease => [s.busy, s.noBuffer]
  | .bbShl n => [s.busy, s.noBuffer, invalidIf (decide (8 ≤ n))]
  | .bbSetbit pos => [s.busy, s.noBuffer, rangeIf (decide (8 * s.S.toNat ≤ pos))]
  | .bbRd64 => [s.noBuffer, rangeIf (decide (s.S.toNat < 8))]
  | .bbRdb index => [s.noBuffer, rangeIf (decide (s.S.toNat ≤ index))]
  | .puGray _ | .puIgray _ | .puPopc _ | .puEntry _ | .hxAbort => []
  | .puRotl amount _ | .puRotr amount _ => [invalidIf (decide (32 ≤ amount))]
  | .puBitw index _ => [invalidIf (decide (32 ≤ index))]
  | .puBitb axis index => [invalidIf (decide (32 ≤ axis ∨ 32 ≤ index))]
  | .puDir n _ => [invalidIf (decide (n = 0 ∨ 32 < n))]
  | .puXmask n _ d => [invalidIf (decide (n = 0 ∨ 32 < n)), invalidIf (decide (n ≤ d))]
  | .puGcr n _ _ => [invalidIf (decide (32 < n))]
  | .hxSetn _ => [s.busy]
  | .hxSetw axis _ => [s.busy, invalidIf (decide (32 ≤ axis))]
  | .hxLdp axis nbytes _ => [s.busy, invalidIf (decide (32 ≤ axis ∨ 4 < nbytes))]
  | .hxInit | .hxRun => s.busy :: s.validate
  | .hxStep => [s.noComputation]
  | .csRd address => [rangeIf (s.readRegister address).isNone]

/-- What a command whose checks pass makes of the architectural state (R27). -/
def effectOf (i : Instr) (s : State) : State :=
  match i with
  | .bbCreate size => s.bufAlloc (createSize size)
  | .bbClear => s.bufClear
  | .bbShl n => s.bufShl n
  | .bbOrw x => s.bufOr32 x
  | .bbXorw x => s.bufXor32 x
  | .bbSetbit pos => s.bufSetBit pos
  | .bbRelease => s.bufRelease
  | .hxSetn n => { s with N := BitVec.ofNat 8 n }
  | .hxSetw axis width => s.setWidth axis (BitVec.ofNat 8 width)
  | .hxLdp axis nbytes bytes => (s.setPoint axis (suppliedBytes bytes nbytes)).setPlen axis (BitVec.ofNat 3 nbytes)
  | .hxInit => s.startComputation
  | .hxStep => s.advance
  | .hxRun => s.computeIndex
  | .hxAbort => s.abandon
  | .bbRd64 | .bbRdb _ | .puGray _ | .puIgray _ | .puRotl _ _ | .puRotr _ _ | .puBitw _ _ | .puBitb _ _ | .puPopc _
  | .puEntry _ | .puDir _ _ | .puXmask _ _ _ | .puGcr _ _ _ | .csRd _ => s

/-- Every command is its checks and, if they pass, its effect and an OK response. -/
theorem exec_eq_complete (i : Instr) (s : State) :
    ∃ data, exec i s = complete s (checksOf i s) ((effectOf i s).answer .ok data) := by
  cases i <;> exact ⟨_, rfl⟩

/-- A command answers a next state: a refusal's, or, with every check passed, its effect's. -/
theorem exec_cases (i : Instr) (s : State) :
    (∃ status, exec i s = .next (s.answer status 0)) ∨
      (∃ data, firstFailure (checksOf i s) = none ∧ exec i s = .next ((effectOf i s).answer .ok data)) := by
  obtain ⟨data, hexec⟩ := exec_eq_complete i s
  rw [hexec]
  rcases complete_cases s (checksOf i s) ((effectOf i s).answer .ok data) with ⟨status, _, hc⟩ | ⟨hpass, hc⟩
  · exact .inl ⟨status, hc⟩
  · exact .inr ⟨data, hpass, hc⟩

/-- The inversion of a command. -/
theorem exec_next {i : Instr} {s t : State} (h : exec i s = .next t) :
    (∃ status, t = s.answer status 0) ∨
      (∃ data, firstFailure (checksOf i s) = none ∧ t = (effectOf i s).answer .ok data) := by
  rcases exec_cases i s with ⟨status, hexec⟩ | ⟨data, hpass, hexec⟩ <;>
    rw [hexec, Host.Outcome.next.injEq] at h
  · exact .inl ⟨status, h.symm⟩
  · exact .inr ⟨data, hpass, h.symm⟩

/-- A step answers a next state: the idle one, a reset's, a refusal's, or, with every check passed, a command's. -/
theorem step_next_cases (s : State) :
    step s = .next s ∨ step s = .next s.takeReset ∨ (∃ status, step s = .next (s.answer status 0)) ∨
      (∃ i data, firstFailure (checksOf i s) = none ∧ step s = .next ((effectOf i s).answer .ok data)) := by
  rcases step_cases s with ⟨_, hs⟩ | ⟨_, _, hs⟩ | ⟨_, _, _, _, _, hs⟩ | ⟨_, _, i, _, _, hs⟩
  · exact .inl hs
  · exact .inr (.inl hs)
  · exact .inr (.inr (.inl ⟨_, hs⟩))
  · rw [hs]
    rcases exec_cases i s with ⟨status, hexec⟩ | ⟨data, hpass, hexec⟩
    · exact .inr (.inr (.inl ⟨status, hexec⟩))
    · exact .inr (.inr (.inr ⟨i, data, hpass, hexec⟩))

/-! ## What the passed checks say -/

theorem busy_mem_checksOf {i : Instr} (s : State) (h : interlocked i = true) : s.busy ∈ checksOf i s := by
  cases i with
  | bbCreate | bbClear | bbShl | bbOrw | bbXorw | bbSetbit | bbRelease | hxSetn | hxSetw | hxLdp | hxInit | hxRun =>
    exact List.mem_cons_self
  | _ => exact absurd h Bool.false_ne_true

theorem noBuffer_mem_checksOf {i : Instr} (s : State) (h : needsBuffer i = true) : s.noBuffer ∈ checksOf i s := by
  cases i with
  | bbClear | bbShl | bbOrw | bbXorw | bbSetbit | bbRelease => exact List.mem_cons_of_mem _ List.mem_cons_self
  | bbRd64 | bbRdb => exact List.mem_cons_self
  | _ => exact absurd h Bool.false_ne_true

/-- R175: an interlocked command takes effect only on an idle block. -/
theorem idle_of_pass {i : Instr} {s : State} (hi : interlocked i = true) (h : firstFailure (checksOf i s) = none) :
    s.ACT = false :=
  firstFailure_eq_none.mp h _ (busy_mem_checksOf s hi)

/-- R173: a command that needs a buffer takes effect only on one. -/
theorem buffer_of_pass {i : Instr} {s : State} (hi : needsBuffer i = true) (h : firstFailure (checksOf i s) = none) :
    s.BV = true := by
  have hb : (!s.BV) = false := firstFailure_eq_none.mp h _ (noBuffer_mem_checksOf s hi)
  simpa using hb

/-- R176: hx.step takes effect only on a computation in progress. -/
theorem running_of_pass {s : State} (h : firstFailure (checksOf .hxStep s) = none) : s.ACT = true := by
  simpa [checksOf, State.noComputation] using h

/-- R172: bb.create takes effect only for a size the storage can hold. -/
theorem createSize_le_of_pass {s : State} {size : Nat} (h : firstFailure (checksOf (.bbCreate size) s) = none) :
    createSize size ≤ s.cfg.bufBytes := by
  have hroom := firstFailure_eq_none.mp h (s.tooBig (createSize size)) (by simp [checksOf])
  simpa [State.tooBig] using hroom

/-- R174: bb.setbit takes effect only on a bit of the buffer. -/
theorem setbit_lt_of_pass {s : State} {pos : Nat} (h : firstFailure (checksOf (.bbSetbit pos) s) = none) :
    pos < 8 * s.S.toNat := by
  have hrange := firstFailure_eq_none.mp h (rangeIf (decide (8 * s.S.toNat ≤ pos))) (by simp [checksOf])
  simpa [rangeIf] using hrange

/-- R171: hx.ldp takes effect only for at most four bytes. -/
theorem nbytes_le_of_pass {s : State} {axis nbytes : Nat} {bytes : Word}
    (h : firstFailure (checksOf (.hxLdp axis nbytes bytes) s) = none) : nbytes ≤ 4 := by
  have hop := firstFailure_eq_none.mp h (invalidIf (decide (32 ≤ axis ∨ 4 < nbytes))) (by simp [checksOf])
  have : ¬ (32 ≤ axis ∨ 4 < nbytes) := by simpa [invalidIf] using hop
  omega

/-- R135: validation passes exactly for a valid configuration whose buffer has room. -/
theorem State.validate_passes_iff (s : State) :
    firstFailure s.validate = none ↔ ConfigOk s ∧ s.sizeNeeded ≤ s.cfg.bufBytes := by
  have haxis : (List.range s.N.toNat).any s.axisInvalid = false ↔
      ∀ j, j < s.N.toNat → (1 ≤ (s.width j).toNat ∧ (s.width j).toNat ≤ 32) ∧
        ceil8 (s.width j).toNat ≤ (s.plen j).toNat := by
    simp only [List.any_eq_false, List.mem_range, State.axisInvalid, decide_eq_true_eq, not_or, not_lt, and_assoc]
  simp only [firstFailure_eq_none, State.validate, List.forall_mem_cons, invalidIf, State.tooBig, haxis,
    decide_eq_false_iff_not, not_or, not_lt, List.not_mem_nil, false_implies, implies_true, and_true]
  constructor
  · rintro ⟨haxes, hj, hroom⟩
    exact ⟨⟨haxes, fun j h => (hj j h).1, fun j h => (hj j h).2⟩, hroom⟩
  · rintro ⟨⟨haxes, hwidths, hlengths⟩, hroom⟩
    exact ⟨haxes, fun j h => ⟨hwidths j h, hlengths j h⟩, hroom⟩

/-- R135: hx.init and hx.run take effect only where a computation can start. -/
theorem canStart_of_pass {s : State} (h : firstFailure (s.busy :: s.validate) = none) : CanStart s := by
  have hall := firstFailure_eq_none.mp h
  obtain ⟨hconfig, hroom⟩ := s.validate_passes_iff.mp
    (firstFailure_eq_none.mpr fun c hc => hall c (List.mem_cons_of_mem _ hc))
  exact ⟨hall s.busy List.mem_cons_self, hconfig, hroom⟩

end Sys2Proof.Machine
end

section
/-! SUPPORT. Which pieces of the state each command's effect writes: the access summary R27, one theorem for each group of
its columns. -/

namespace Sys2Proof.Machine

open Sys2Proof.Safety

/-! ## The frame of hx.step's effect -/

/-- R145, R146: hx.step writes no operand, no size and no flag but ACT. -/
theorem State.advance_frame (s : State) :
    s.advance.cfg = s.cfg ∧ s.advance.S = s.S ∧ s.advance.BV = s.BV ∧ s.advance.N = s.N ∧ s.advance.W = s.W ∧
      s.advance.P = s.P ∧ s.advance.PLEN = s.PLEN := by
  rcases s.advance_cases with ⟨_, h⟩ | ⟨_, h⟩ <;> rw [h] <;> exact ⟨rfl, rfl, rfl, rfl, rfl, rfl, rfl⟩

/-- No operand register (R16 to R19), nor the parameter of R5, differs. -/
structure SameOperands (s t : State) : Prop where
  cfg : t.cfg = s.cfg
  N : t.N = s.N
  W : t.W = s.W
  P : t.P = s.P
  PLEN : t.PLEN = s.PLEN

theorem State.advance_sameOperands (s : State) : SameOperands s s.advance := by
  obtain ⟨hcfg, _, _, hN, hW, hP, hPLEN⟩ := s.advance_frame
  exact ⟨hcfg, hN, hW, hP, hPLEN⟩

theorem State.computeIndex_sameOperands (s : State) : SameOperands s s.computeIndex := by
  obtain ⟨hcfg, _, _, hN, hW, hP, hPLEN, _⟩ := s.computeIndex_frame
  exact ⟨hcfg, hN, hW, hP, hPLEN⟩

/-! ## The columns of R27 -/

theorem effectOf_cfg (i : Instr) (s : State) : (effectOf i s).cfg = s.cfg := by
  cases i with
  | hxStep => exact s.advance_sameOperands.cfg
  | hxRun => exact s.computeIndex_sameOperands.cfg
  | _ => rfl

variable {i : Instr} {s : State}

theorem writesBuffer_of_effectOf_B (h : (effectOf i s).B ≠ s.B) : writesBuffer i = true := by
  cases i with
  | bbCreate | bbClear | bbShl | bbOrw | bbXorw | bbSetbit | bbRelease | hxInit | hxStep | hxRun => rfl
  | _ => exact absurd rfl h

theorem sizes_of_effectOf (h : (effectOf i s).S ≠ s.S ∨ (effectOf i s).BV ≠ s.BV) :
    (∃ size, i = .bbCreate size) ∨ i = .bbRelease ∨ i = .hxInit ∨ i = .hxRun := by
  obtain ⟨_, hS, hBV, _⟩ := s.advance_frame
  cases i with
  | bbCreate size => exact .inl ⟨size, rfl⟩
  | bbRelease => exact .inr (.inl rfl)
  | hxInit => exact .inr (.inr (.inl rfl))
  | hxRun => exact .inr (.inr (.inr rfl))
  | hxStep => exact h.elim (absurd hS) (absurd hBV)
  | _ => exact h.elim (absurd rfl) (absurd rfl)

theorem setn_of_effectOf_N (h : (effectOf i s).N ≠ s.N) : ∃ n, i = .hxSetn n := by
  cases i with
  | hxSetn n => exact ⟨n, rfl⟩
  | hxStep => exact absurd s.advance_sameOperands.N h
  | hxRun => exact absurd s.computeIndex_sameOperands.N h
  | _ => exact absurd rfl h

theorem setw_of_effectOf_W (h : (effectOf i s).W ≠ s.W) : ∃ axis width, i = .hxSetw axis width := by
  cases i with
  | hxSetw axis width => exact ⟨axis, width, rfl⟩
  | hxStep => exact absurd s.advance_sameOperands.W h
  | hxRun => exact absurd s.computeIndex_sameOperands.W h
  | _ => exact absurd rfl h

theorem ldp_of_effectOf_points (h : (effectOf i s).P ≠ s.P ∨ (effectOf i s).PLEN ≠ s.PLEN) :
    ∃ axis nbytes bytes, i = .hxLdp axis nbytes bytes := by
  cases i with
  | hxLdp axis nbytes bytes => exact ⟨axis, nbytes, bytes, rfl⟩
  | hxStep => exact h.elim (absurd s.advance_sameOperands.P) (absurd s.advance_sameOperands.PLEN)
  | hxRun => exact h.elim (absurd s.computeIndex_sameOperands.P) (absurd s.computeIndex_sameOperands.PLEN)
  | _ => exact h.elim (absurd rfl) (absurd rfl)

theorem engine_of_effectOf_accumulators
    (h : (effectOf i s).E ≠ s.E ∨ (effectOf i s).D ≠ s.D ∨ (effectOf i s).LVL ≠ s.LVL) :
    i = .hxInit ∨ i = .hxStep ∨ i = .hxRun := by
  cases i with
  | hxInit => exact .inl rfl
  | hxStep => exact .inr (.inl rfl)
  | hxRun => exact .inr (.inr rfl)
  | _ => rcases h with h | h | h <;> exact absurd rfl h

/-- hx.run clears ACT, but it takes effect only where ACT is already clear. -/
theorem engine_of_effectOf_ACT (hpass : firstFailure (checksOf i s) = none) (h : (effectOf i s).ACT ≠ s.ACT) :
    i = .hxInit ∨ i = .hxStep ∨ i = .hxAbort := by
  cases i with
  | hxInit => exact .inl rfl
  | hxStep => exact .inr (.inl rfl)
  | hxAbort => exact .inr (.inr rfl)
  | hxRun => exact absurd (idle_of_pass rfl hpass).symm h
  | _ => exact absurd rfl h

theorem engine_of_effectOf_latches
    (h : (effectOf i s).MU ≠ s.MU ∨ (effectOf i s).L ≠ s.L ∨ (effectOf i s).T ≠ s.T ∨ (effectOf i s).WV ≠ s.WV ∨
      (effectOf i s).R ≠ s.R) : i = .hxStep ∨ i = .hxRun := by
  cases i with
  | hxStep => exact .inl rfl
  | hxRun => exact .inr rfl
  | _ => rcases h with h | h | h | h | h <;> exact absurd rfl h

end Sys2Proof.Machine

namespace Sys2Proof.Safety

open Sys2Proof.Machine

/-- Settles O17: a refusal writes nothing (R179), and an effect writes what its row of R27 says. -/
theorem onlyTheNamedCommandsWriteEachRegister : Obligations.OnlyTheNamedCommandsWriteEachRegister := by
  intro i s t hexec
  rcases exec_next hexec with ⟨status, rfl⟩ | ⟨data, hpass, rfl⟩
  · simp
  · exact ⟨effectOf_cfg i s, writesBuffer_of_effectOf_B, sizes_of_effectOf, setn_of_effectOf_N, setw_of_effectOf_W,
      ldp_of_effectOf_points, engine_of_effectOf_accumulators, engine_of_effectOf_ACT hpass, engine_of_effectOf_latches⟩

end Sys2Proof.Safety
end

section
/-! SUPPORT. The invariant in its parts: the parameter's range, the buffer (R12, R13, R14), the points (R19), and the
computation in progress (R23); what each operation of the machine does to each part; and from that, that every command's
effect keeps the whole. -/

namespace Sys2Proof.Safety

open Sys2Proof.Machine

variable {s t : State}

/-! ## The parts of the invariant -/

/-- R12, R13, R14: the part of the invariant that is about the buffer. -/
structure BufferOk (s : State) : Prop where
  canonical : s.B.wf
  size : s.BV = true → 4 ≤ s.S.toNat ∧ s.S.toNat ≤ s.cfg.bufBytes
  noBuffer : s.BV = false → s.S = 0
  outside : ∀ k, s.S.toNat ≤ k → s.byte k = 0

/-- R19: the part of the invariant that is about the points. -/
structure PointsOk (s : State) : Prop where
  lengths : ∀ j, j < 32 → (s.plen j).toNat ≤ 4
  points : ∀ j, j < 32 → (s.point j).toNat < 2 ^ (8 * (s.plen j).toNat)

theorem inv_iff : Inv s ↔ s.cfg.Valid ∧ BufferOk s ∧ PointsOk s ∧ (s.ACT = true → Running s) := by
  constructor
  · intro h
    exact ⟨h.capacity, ⟨h.canonical, h.size, h.noBuffer, h.outside⟩, ⟨h.lengths, h.points⟩, h.running⟩
  · rintro ⟨hcap, ⟨hwf, hsize, hno, hout⟩, ⟨hlen, hpts⟩, hrun⟩
    exact ⟨hcap, hwf, hsize, hno, hout, hlen, hpts, hrun⟩

theorem Inv.buffer (h : Inv s) : BufferOk s := (inv_iff.mp h).2.1

theorem Inv.operands (h : Inv s) : PointsOk s := (inv_iff.mp h).2.2.1

/-- An idle state owes nothing to R23. -/
theorem Inv.of_idle (hidle : s.ACT = false) (hcap : s.cfg.Valid) (hbuf : BufferOk s) (hpts : PointsOk s) : Inv s :=
  inv_iff.mpr ⟨hcap, hbuf, hpts, fun h => absurd h (by simp [hidle])⟩

/-! ## The buffer -/

/-- A write inside the buffer of the same size, by an operation that keeps the canonical form. -/
theorem BufferOk.of_inside (h : BufferOk s) (hcfg : t.cfg = s.cfg) (hS : t.S = s.S) (hBV : t.BV = s.BV)
    (hwf : t.B.wf) (habove : ∀ k, s.S.toNat ≤ k → t.byte k = s.byte k) : BufferOk t where
  canonical := hwf
  size := by rw [hBV, hS, hcfg]; exact h.size
  noBuffer := by rw [hBV, hS]; exact h.noBuffer
  outside := by
    intro k hk
    rw [hS] at hk
    rw [habove k hk, h.outside k hk]

theorem BufferOk.congr (h : BufferOk s) (hcfg : t.cfg = s.cfg) (hB : t.B = s.B) (hS : t.S = s.S)
    (hBV : t.BV = s.BV) : BufferOk t :=
  h.of_inside hcfg hS hBV (hB ▸ h.canonical) fun k _ => by rw [State.byte, hB]; rfl

/-- R85: a fresh buffer of an admissible size. -/
theorem BufferOk.of_bufAlloc {size : Nat} (hcap : s.cfg.Valid) (hmin : 4 ≤ size) (hmax : size ≤ s.cfg.bufBytes) :
    BufferOk (s.bufAlloc size) := by
  have hS : (s.bufAlloc size).S.toNat = size := by
    rw [State.bufAlloc_S, BitVec.toNat_ofNat]
    exact Nat.mod_eq_of_lt (lt_of_le_of_lt (hmax.trans hcap.2) (by decide))
  refine ⟨Memory.wf_nil, fun _ => ?_, fun h => ?_, fun k _ => Memory.read_nil k⟩
  · rw [hS]; exact ⟨hmin, hmax⟩
  · simp at h

/-- Without a buffer every byte is zero and the size is 0. -/
theorem BufferOk.of_noBuffer (hB : s.B = []) (hS : s.S = 0) (hBV : s.BV = false) : BufferOk s where
  canonical := hB ▸ Memory.wf_nil
  size := fun h => absurd h (by simp [hBV])
  noBuffer := fun _ => hS
  outside := fun k _ => by rw [State.byte, hB, Memory.read_nil]

/-- R143: a level writes inside the buffer. -/
theorem BufferOk.level (h : BufferOk s) (hBV : s.BV = true) (i : Nat) : BufferOk (s.level i) :=
  h.of_inside rfl rfl rfl (s.levelAppend_wf i h.canonical) fun _ hk => s.levelAppend_above i (h.size hBV).1 hk

/-- R147: so does the loop of levels. -/
theorem BufferOk.runLevels (h : BufferOk s) (hBV : s.BV = true) (m : Nat) : BufferOk (State.runLevels m s) :=
  (State.runLevels_induction (motive := fun s => s.BV = true ∧ BufferOk s)
    (fun _ i hs => ⟨hs.1, hs.2.level hs.1 i⟩) m s ⟨hBV, h⟩).2

/-! ## The points -/

theorem PointsOk.congr (h : PointsOk s) (hP : t.P = s.P) (hPLEN : t.PLEN = s.PLEN) : PointsOk t := by
  have hpoint : ∀ j, t.point j = s.point j := fun j => by rw [State.point, hP]; rfl
  have hplen : ∀ j, t.plen j = s.plen j := fun j => by rw [State.plen, hPLEN]; rfl
  exact ⟨fun j hj => by rw [hplen]; exact h.lengths j hj, fun j hj => by rw [hpoint, hplen]; exact h.points j hj⟩

/-- R133: the supplied bytes are below `2^(8 * nbytes)`. -/
theorem suppliedBytes_toNat_lt (bytes : Word) (nbytes : Nat) :
    (suppliedBytes bytes nbytes).toNat < 2 ^ (8 * nbytes) := by
  have hmask : (BitVec.ofNat 32 (2 ^ (8 * nbytes) - 1)).toNat ≤ 2 ^ (8 * nbytes) - 1 := by
    rw [BitVec.toNat_ofNat]; exact Nat.mod_le _ _
  have hand : (suppliedBytes bytes nbytes).toNat ≤ (BitVec.ofNat 32 (2 ^ (8 * nbytes) - 1)).toNat := by
    rw [suppliedBytes, BitVec.toNat_and]; exact Nat.and_le_right
  have hpos := Nat.two_pow_pos (8 * nbytes)
  omega

/-- R133: a loaded point holds the supplied bytes and their number. -/
theorem PointsOk.load (h : PointsOk s) (axis : Nat) {nbytes : Nat} (bytes : Word) (hn : nbytes ≤ 4) :
    PointsOk ((s.setPoint axis (suppliedBytes bytes nbytes)).setPlen axis (BitVec.ofNat 3 nbytes)) := by
  have hlen : (BitVec.ofNat 3 nbytes).toNat = nbytes := by
    rw [BitVec.toNat_ofNat]; exact Nat.mod_eq_of_lt (by omega)
  constructor <;> intro j hj <;>
    simp only [State.setPlen_point_read, State.setPlen_plen _ _ _ hj, State.setPoint_point _ _ _ hj,
      State.setPoint_plen_read]
  · split_ifs
    · omega
    · exact h.lengths j hj
  · split_ifs
    · rw [hlen]; exact suppliedBytes_toNat_lt bytes nbytes
    · exact h.points j hj

/-! ## The widest axis (R134) -/

theorem foldl_max_le_iff {l : List Nat} {b : Nat} : ∀ {a : Nat}, l.foldl max a ≤ b ↔ a ≤ b ∧ ∀ x ∈ l, x ≤ b := by
  induction l with
  | nil => simp
  | cons x l ih => intro a; simp [ih, and_assoc]

theorem maxWidth_le_iff {b : Nat} : s.maxWidth ≤ b ↔ ∀ j, j < s.N.toNat → (s.width j).toNat ≤ b := by
  simp [State.maxWidth, foldl_max_le_iff]

theorem ConfigOk.one_le_maxWidth (h : ConfigOk s) : 1 ≤ s.maxWidth :=
  (h.widths 0 h.axes.1).1.trans (maxWidth_le_iff.mp le_rfl 0 h.axes.1)

theorem ConfigOk.maxWidth_le (h : ConfigOk s) : s.maxWidth ≤ 32 := maxWidth_le_iff.mpr fun j hj => (h.widths j hj).2

/-! ## The computation in progress (R23) -/

/-- R136, R147: the buffer a computation starts with. -/
theorem BufferOk.bufAlloc_sizeNeeded (h : CanStart s) (hcap : s.cfg.Valid) : BufferOk (s.bufAlloc s.sizeNeeded) :=
  BufferOk.of_bufAlloc hcap (le_max_left _ _) h.room

/-- R136: a started computation is one in progress. -/
theorem Running.startComputation (h : CanStart s) (hcap : s.cfg.Valid) : Running s.startComputation where
  buffer := rfl
  axes := h.config.axes
  widths := h.config.widths
  lengths := h.config.lengths
  size := by
    rw [State.startComputation_S, State.startComputation_sizeNeeded, BitVec.toNat_ofNat]
    exact Nat.mod_eq_of_lt (lt_of_le_of_lt (h.room.trans hcap.2) (by decide))
  direction := h.config.axes.1
  level := by
    have hpos := h.config.one_le_maxWidth
    have hmax := h.config.maxWidth_le
    rw [State.startComputation_LVL, State.startComputation_maxWidth, BitVec.toNat_ofNat]
    omega

/-- R144, R145: a level that is not the last leaves the computation in progress, one level further. -/
theorem Running.nextLevel (h : Running s) (hlvl : s.LVL ≠ 0) (i : Nat) :
    Running { s.level i with LVL := s.LVL - 1 } where
  buffer := h.buffer
  axes := h.axes
  widths := h.widths
  lengths := h.lengths
  size := h.size
  direction := s.levelD_lt i h.axes.1 h.axes.2
  level := by
    have hle : (s.LVL - 1).toNat ≤ s.LVL.toNat := by bv_omega
    exact lt_of_le_of_lt hle h.level

/-! ## The invariant, command by command -/

/-- The channel is no part of the invariant. -/
theorem Inv.answer (h : Inv s) (status : Status) (data : Data) : Inv (s.answer status data) :=
  { h with running := fun hact => { h.running hact with } }

/-- R28, R12: the state after reset, for every parameter in range. -/
theorem Inv.of_reset {c : Config} (hc : c.Valid) : Inv (State.resetOf c) :=
  Inv.of_idle rfl hc (BufferOk.of_noBuffer rfl rfl rfl)
    ⟨fun j _ => by simp, fun j _ => by simp⟩

theorem Inv.takeReset (h : Inv s) : Inv s.takeReset :=
  Inv.of_idle rfl h.capacity (BufferOk.of_noBuffer rfl rfl rfl)
    ((Inv.of_reset h.capacity).operands.congr rfl rfl)

/-- An idle command that writes inside the buffer only. -/
theorem Inv.writeInside (h : Inv s) (hidle : s.ACT = false) {B : Memory} (hwf : B.wf)
    (habove : ∀ k, s.S.toNat ≤ k → B.read k = s.B.read k) : Inv { s with B := B } :=
  Inv.of_idle hidle h.capacity (h.buffer.of_inside rfl rfl rfl hwf habove) (h.operands.congr rfl rfl)

theorem Inv.advance (h : Inv s) (hact : s.ACT = true) : Inv s.advance := by
  have hrun := h.running hact
  rcases s.advance_cases with ⟨_, hadv⟩ | ⟨hlvl, hadv⟩ <;> rw [hadv]
  · have hbuf := h.buffer.level hrun.buffer 0
    exact Inv.of_idle rfl h.capacity (hbuf.congr rfl rfl rfl rfl) (h.operands.congr rfl rfl)
  · have hbuf := h.buffer.level hrun.buffer s.LVL.toNat
    exact inv_iff.mpr ⟨h.capacity, hbuf.congr rfl rfl rfl rfl,
      h.operands.congr rfl rfl, fun _ => hrun.nextLevel hlvl _⟩

theorem Inv.startComputation (h : Inv s) (hstart : CanStart s) : Inv s.startComputation := by
  have hbuf := BufferOk.bufAlloc_sizeNeeded hstart h.capacity
  exact inv_iff.mpr ⟨h.capacity, hbuf.congr rfl rfl rfl rfl, h.operands.congr rfl rfl,
    fun _ => Running.startComputation hstart h.capacity⟩

theorem Inv.computeIndex (h : Inv s) (hstart : CanStart s) : Inv s.computeIndex := by
  have hops := s.computeIndex_sameOperands
  have halloc := BufferOk.bufAlloc_sizeNeeded hstart h.capacity
  have hfresh : BufferOk { s.bufAlloc s.sizeNeeded with E := 0, D := 0 } :=
    halloc.congr rfl rfl rfl rfl
  have hbuf := hfresh.runLevels rfl s.maxWidth
  exact Inv.of_idle rfl (hops.cfg ▸ h.capacity) (hbuf.congr rfl rfl rfl rfl)
    (h.operands.congr hops.P hops.PLEN)

/-- The invariant is kept by the effect of every command whose checks pass. -/
theorem Inv.effectOf (h : Inv s) (i : Instr) (hpass : firstFailure (checksOf i s) = none) : Inv (effectOf i s) := by
  have hidle : interlocked i = true → s.ACT = false := fun hi => idle_of_pass hi hpass
  cases i with
  | bbCreate size =>
    exact Inv.of_idle (hidle rfl) h.capacity
      (BufferOk.of_bufAlloc h.capacity (le_max_right _ _) (createSize_le_of_pass hpass)) (h.operands.congr rfl rfl)
  | bbClear =>
    exact h.writeInside (hidle rfl) (Memory.wf_clear _ h.canonical) fun k hk => by
      rw [Memory.read_clear, if_neg (by omega)]
  | bbShl n =>
    exact h.writeInside (hidle rfl) (Memory.wf_shl h.canonical _ _) fun k hk => by
      rw [Memory.read_shl, if_neg (by omega)]
  | bbOrw x =>
    have hmin := (h.size (buffer_of_pass rfl hpass)).1
    exact h.writeInside (hidle rfl) (Memory.wf_or32 h.canonical _ _) fun k hk => by
      rw [Memory.read_or32, if_neg (by omega)]
  | bbXorw x =>
    have hmin := (h.size (buffer_of_pass rfl hpass)).1
    exact h.writeInside (hidle rfl) (Memory.wf_xor32 h.canonical _) fun k hk => by
      rw [Memory.read_xor32, if_neg (by omega)]
  | bbSetbit pos =>
    have hpos := setbit_lt_of_pass hpass
    exact h.writeInside (hidle rfl) (Memory.wf_setBit h.canonical _) fun k hk => by
      rw [Memory.read_setBit, if_neg (by omega)]
  | bbRelease =>
    exact Inv.of_idle (hidle rfl) h.capacity (BufferOk.of_noBuffer rfl rfl rfl) (h.operands.congr rfl rfl)
  | hxSetn | hxSetw =>
    exact Inv.of_idle (hidle rfl) h.capacity
      (h.buffer.congr rfl rfl rfl rfl) (h.operands.congr rfl rfl)
  | hxLdp axis nbytes bytes =>
    exact Inv.of_idle (hidle rfl) h.capacity
      (h.buffer.congr rfl rfl rfl rfl)
      (h.operands.load axis bytes (nbytes_le_of_pass hpass))
  | hxInit => exact h.startComputation (canStart_of_pass hpass)
  | hxStep => exact h.advance (running_of_pass hpass)
  | hxRun => exact h.computeIndex (canStart_of_pass hpass)
  | hxAbort =>
    exact Inv.of_idle rfl h.capacity (h.buffer.congr rfl rfl rfl rfl)
      (h.operands.congr rfl rfl)
  | _ => exact h

/-- Settles O18, by what a step can be: idle, a reset, a refusal or a command's effect. -/
theorem everyStepKeepsTheStateInvariant : Obligations.EveryStepKeepsTheStateInvariant := by
  intro s h
  rcases step_next_cases s with hs | hs | ⟨status, hs⟩ | ⟨i, data, hpass, hs⟩
  · exact ⟨_, hs, h⟩
  · exact ⟨_, hs, h.takeReset⟩
  · exact ⟨_, hs, h.answer status 0⟩
  · exact ⟨_, hs, (h.effectOf i hpass).answer .ok data⟩

/-- Settles O19: the 128 bytes of State.reset are in the parameter's range. -/
theorem resetHasTheStateInvariant : Obligations.ResetHasTheStateInvariant := Inv.of_reset (by decide)

/-- Settles O10: no byte is listed, and every register is written zero. -/
theorem resetStateIsAllZero : Obligations.ResetStateIsAllZero where
  B := Memory.read_nil
  S := rfl
  BV := rfl
  N := rfl
  W := fun j _ => State.width_reset _ j
  P := fun j _ => State.point_reset _ j
  PLEN := fun j _ => State.plen_reset _ j
  E := rfl
  D := rfl
  LVL := rfl
  ACT := rfl
  MU := rfl
  L := rfl
  T := rfl
  WV := rfl
  R := rfl

end Sys2Proof.Safety
end

section
/-! SUPPORT. The little-endian value of several bytes bit by bit (R41, R43), and from that bb.rd64. -/

namespace Sys2Proof.Machine

open Sys2Proof.Safety

/-- R41: bit `b` of the value of `n` bytes is bit `b mod 8` of byte `b div 8`. -/
theorem Memory.readN_testBit (m : Memory) (addr : Nat) : ∀ n b,
    (m.readN addr n).testBit b = (decide (b < 8 * n) && (m.read (addr + b / 8)).getLsbD (b % 8))
  | 0, b => by simp [Memory.readN]
  | n + 1, b => by
    have hsplit : m.readN addr (n + 1) = 2 ^ (8 * n) * (m.read (addr + n)).toNat + m.readN addr n := by
      rw [Memory.readN]; ring
    rw [hsplit, Nat.testBit_two_pow_mul_add _ (m.readN_lt addr n)]
    by_cases hlow : b < 8 * n
    · have hb : b < 8 * (n + 1) := by omega
      rw [if_pos hlow, Memory.readN_testBit m addr n b]
      simp [hlow, hb]
    · rw [if_neg hlow, BitVec.testBit_toNat]
      by_cases hb : b < 8 * (n + 1)
      · have hbyte : b / 8 = n := by omega
        have hbit : b - 8 * n = b % 8 := by omega
        simp [hb, hbyte, hbit]
      · simp [hb, BitVec.getLsbD_of_ge _ _ (show 8 ≤ b - 8 * n by omega)]

/-- R43: bit `b` of `MemRead(0, 8)`, as the 64 data bits, is bit `b` of the buffer. -/
theorem readN_eight_getLsbD (m : Memory) {b : Nat} (h : b < 64) :
    (data64 (m.readN 0 8)).getLsbD b = bufferBit m b := by
  rw [data64, BitVec.getLsbD_ofNat, Memory.readN_testBit, Nat.zero_add]
  simp [h, bufferBit]

/-- R92: bb.rd64's two checks and its response; ACT is not among the checks. -/
theorem exec_bbRd64 (s : State) :
    exec .bbRd64 s =
      complete s [s.noBuffer, rangeIf (decide (s.S.toNat < 8))] (s.answer .ok (data64 (s.B.readN 0 8))) := rfl

end Sys2Proof.Machine

namespace Sys2Proof.Safety

open Sys2Proof.Machine

/-- Settles O28: the first check that fails is R173's without a buffer and R174's for a short one, and otherwise the
response is `MemRead(0, 8)`. -/
theorem read64ReturnsTheFirstEightBytes : Obligations.Read64ReturnsTheFirstEightBytes := by
  intro s
  rw [exec_bbRd64]
  refine ⟨fun hBV => ?_, fun hBV hS => ?_, fun hBV hS => ⟨_, ?_, fun _ hb => readN_eight_getLsbD s.B hb⟩⟩
  · exact complete_of_fail (by simp [State.noBuffer, hBV])
  · exact complete_of_fail (by simp [State.noBuffer, rangeIf, hBV, hS])
  · exact complete_of_pass (by simp [State.noBuffer, rangeIf, hBV, hS])

end Sys2Proof.Safety
end

section
/-! SUPPORT. Repeating a command (R47). States that agree on the architectural state give a command the same checks and
a reading command the same response; the effect of each listed write is the same when applied again. -/

namespace Sys2Proof.Safety

open Sys2Proof.Machine

/-! ## The same architectural state -/

/-- R60: a response is no architectural state. -/
theorem SameArch.answer (s : State) (status : Status) (data : Data) : SameArch s (s.answer status data) :=
  ⟨rfl, rfl, rfl, rfl, rfl, rfl, rfl, rfl, rfl, rfl, rfl, rfl, rfl, rfl, rfl, rfl, rfl⟩

/-- States with the same architectural state differ in the channel at most. -/
theorem SameArch.eq_with_channel {s s' : State} (h : SameArch s s') :
    s' = { s with inputs := s'.inputs, rsps := s'.rsps } := by
  obtain ⟨hcfg, hB, hS, hBV, hN, hW, hP, hPLEN, hE, hD, hLVL, hACT, hMU, hL, hT, hWV, hR⟩ := h
  rw [← hcfg, ← hB, ← hS, ← hBV, ← hN, ← hW, ← hP, ← hPLEN, ← hE, ← hD, ← hLVL, ← hACT, ← hMU, ← hL, ← hT, ← hWV, ← hR]

end Sys2Proof.Safety

namespace Sys2Proof.Machine

open Sys2Proof.Safety

/-- No check reads the channel. -/
theorem checksOf_congr {s s' : State} (h : SameArch s s') (i : Instr) : checksOf i s' = checksOf i s := by
  rw [h.eq_with_channel]
  cases i <;> rfl

/-! ## What one command answers, by its checks -/

theorem exec_of_fail {i : Instr} {s : State} {status : Status} (h : firstFailure (checksOf i s) = some status) :
    exec i s = .next (s.answer status 0) := by
  obtain ⟨data, hexec⟩ := exec_eq_complete i s
  rw [hexec, complete_of_fail h]

theorem exec_of_pass {i : Instr} {s : State} (h : firstFailure (checksOf i s) = none) :
    ∃ data, exec i s = .next ((effectOf i s).answer .ok data) := by
  obtain ⟨data, hexec⟩ := exec_eq_complete i s
  exact ⟨data, by rw [hexec, complete_of_pass h]⟩

/-! ## The reading commands -/

/-- The data of a reading command whose checks pass (R92, R93, R111 to R121, R160); the other commands read nothing. -/
def readData (i : Instr) (s : State) : Data :=
  match i with
  | .bbRd64 => data64 (s.B.readN 0 8)
  | .bbRdb index => zext64 (s.byte index)
  | .puGray v => zext64 (gray v)
  | .puIgray v => zext64 (igray v)
  | .puRotl amount v => zext64 (rotl v amount)
  | .puRotr amount v => zext64 (rotr v amount)
  | .puBitw index v => zext64 (BitVec.ofBool (bitAtWord v index))
  | .puBitb axis index => zext64 (BitVec.ofBool (bitAtBytes (pointBytes (s.point axis)) index))
  | .puPopc v => data64 (popcount v)
  | .puEntry v => zext64 (entry v)
  | .puDir n v => data64 (direction v n)
  | .puXmask n level d => zext64 (extractMask n s.W level d)
  | .puGcr n mu w => zext64 (gcr n mu w)
  | .csRd address => (s.readRegister address).getD 0
  | .bbCreate _ | .bbClear | .bbShl _ | .bbOrw _ | .bbXorw _ | .bbSetbit _ | .bbRelease | .hxSetn _ | .hxSetw _ _
  | .hxLdp _ _ _ | .hxInit | .hxStep | .hxRun | .hxAbort => 0

/-- The response of a reading command: the first failing check's status, or OK with the data read. -/
def readResponse (i : Instr) (s : State) : Response :=
  match firstFailure (checksOf i s) with
  | some status => ⟨status, 0⟩
  | none => ⟨.ok, readData i s⟩

theorem exec_readOnly_eq_complete {i : Instr} (hi : readOnly i = true) (s : State) :
    exec i s = complete s (checksOf i s) (s.answer .ok (readData i s)) := by
  cases i with
  | bbCreate | bbClear | bbShl | bbOrw | bbXorw | bbSetbit | bbRelease | hxSetn | hxSetw | hxLdp | hxInit | hxStep
  | hxRun | hxAbort => exact absurd hi Bool.false_ne_true
  | _ => rfl

/-- R47, R124: a reading command gives its response and does nothing else. -/
theorem exec_readOnly {i : Instr} (hi : readOnly i = true) (s : State) :
    exec i s = .next (s.answer (readResponse i s).status (readResponse i s).data) := by
  rw [exec_readOnly_eq_complete hi, readResponse]
  cases h : firstFailure (checksOf i s) with
  | none => rw [complete_of_pass h]
  | some status => rw [complete_of_fail h]

/-- What is read is architectural state, never the channel. -/
theorem readData_congr {s s' : State} (h : SameArch s s') (i : Instr) : readData i s' = readData i s := by
  rw [h.eq_with_channel]
  cases i <;> rfl

theorem readResponse_congr {s s' : State} (h : SameArch s s') (i : Instr) : readResponse i s' = readResponse i s := by
  rw [readResponse, checksOf_congr h, readData_congr h, readResponse]

/-! ## The writes that may be repeated -/

/-- R87: a cleared buffer is cleared already. -/
theorem Memory.clear_clear {m : Memory} (h : m.wf) (size : Nat) : (m.clear size).clear size = m.clear size := by
  refine Memory.eq_of_read_eq (Memory.wf_clear size (Memory.wf_clear size h)) (Memory.wf_clear size h) fun k => ?_
  simp only [Memory.read_clear]
  split_ifs <;> rfl

/-- R83: the bits of the word are set already. -/
theorem Memory.or32_or32 {m : Memory} (h : m.wf) (size : Nat) (x : Word) :
    (m.or32 size x).or32 size x = m.or32 size x := by
  refine Memory.eq_of_read_eq (Memory.wf_or32 (Memory.wf_or32 h _ _) _ _) (Memory.wf_or32 h _ _) fun k => ?_
  simp only [Memory.read_or32]
  split_ifs
  · rw [BitVec.or_assoc, BitVec.or_self]
  · rfl

/-- R91: the bit is set already. -/
theorem Memory.setBit_setBit {m : Memory} (h : m.wf) (pos : Nat) : (m.setBit pos).setBit pos = m.setBit pos := by
  refine Memory.eq_of_read_eq (Memory.wf_setBit (Memory.wf_setBit h _) _) (Memory.wf_setBit h _) fun k => ?_
  simp only [Memory.read_setBit]
  split_ifs
  · rw [BitVec.or_assoc, BitVec.or_self]
  · rfl

variable {i : Instr} (hi : idempotent i = true)
include hi

/-- R47: on a canonical storage the effect of a listed write, applied again, changes nothing. -/
theorem effectOf_effectOf {s : State} (hwf : s.B.wf) : effectOf i (effectOf i s) = effectOf i s := by
  cases i with
  | bbOrw x => simp [effectOf, State.bufOr32, Memory.or32_or32 hwf]
  | bbSetbit pos => simp [effectOf, State.bufSetBit, Memory.setBit_setBit hwf]
  | bbClear => simp [effectOf, State.bufClear, Memory.clear_clear hwf]
  | hxSetn | hxAbort => rfl
  | hxSetw axis width => simp [effectOf, State.setWidth]
  | hxLdp axis nbytes bytes => simp [effectOf, State.setPoint, State.setPlen]
  | _ => exact absurd hi Bool.false_ne_true

/-- A listed write changes nothing its own checks read. -/
theorem checksOf_effectOf (s : State) : checksOf i (effectOf i s) = checksOf i s := by
  cases i with
  | bbOrw | bbSetbit | bbClear | hxSetn | hxSetw | hxLdp | hxAbort => rfl
  | _ => exact absurd hi Bool.false_ne_true

/-- The effect of a listed write leaves the channel alone. -/
theorem effectOf_answer (s : State) (status : Status) (data : Data) :
    effectOf i (s.answer status data) = (effectOf i s).answer status data := by
  cases i with
  | bbOrw | bbSetbit | bbClear | hxSetn | hxSetw | hxLdp | hxAbort => rfl
  | _ => exact absurd hi Bool.false_ne_true

/-- R47: a listed write, repeated, is refused again or finds its effect already there. -/
theorem exec_repeated {s : State} (hwf : s.B.wf) :
    ∃ t u, exec i s = .next t ∧ exec i t = .next u ∧ SameArch t u := by
  cases hcheck : firstFailure (checksOf i s) with
  | some status =>
    refine ⟨_, _, exec_of_fail hcheck, exec_of_fail (status := status) ?_, SameArch.answer _ status 0⟩
    rw [checksOf_congr (SameArch.answer s status 0), hcheck]
  | none =>
    obtain ⟨data, hfirst⟩ := exec_of_pass hcheck
    have hagain : firstFailure (checksOf i ((effectOf i s).answer .ok data)) = none := by
      rw [checksOf_congr (SameArch.answer _ .ok data), checksOf_effectOf hi, hcheck]
    obtain ⟨data', hsecond⟩ := exec_of_pass hagain
    rw [effectOf_answer hi, effectOf_effectOf hi hwf] at hsecond
    exact ⟨_, _, hfirst, hsecond, SameArch.answer _ .ok data'⟩

end Sys2Proof.Machine

namespace Sys2Proof.Safety

open Sys2Proof.Machine

/-! ## The commands that may not be repeated -/

/-- A command that, from some state with the invariant, gives another state when repeated. -/
def RepeatDiffers (i : Instr) : Prop :=
  ∃ s t u, Inv s ∧ exec i s = .next t ∧ exec i t = .next u ∧ ¬ SameArch t u

/-- A buffer of four bytes with bit 0 set: bb.create 4 and bb.setbit 0 after reset. -/
def oneBit : State := effectOf (.bbSetbit 0) (effectOf (.bbCreate 4) State.reset)

theorem oneBit_inv : Inv oneBit :=
  (resetHasTheStateInvariant.effectOf (.bbCreate 4) (by decide)).effectOf (.bbSetbit 0) (by decide)

/-- One axis of three bits with one byte supplied, after reset. -/
def oneAxis : State := effectOf (.hxLdp 0 1 0) (effectOf (.hxSetw 0 3) (effectOf (.hxSetn 1) State.reset))

/-- A computation with three levels to go. -/
def threeLevels : State := effectOf .hxInit oneAxis

theorem oneAxis_inv : Inv oneAxis :=
  ((resetHasTheStateInvariant.effectOf (.hxSetn 1) (by decide)).effectOf (.hxSetw 0 3) (by decide)).effectOf
    (.hxLdp 0 1 0) (by decide)

theorem threeLevels_inv : Inv threeLevels := oneAxis_inv.effectOf .hxInit (by decide)

/-- R80: the bit moves to position 1, then to position 2. -/
theorem repeatDiffers_bbShl : RepeatDiffers (.bbShl 1) :=
  ⟨oneBit, (oneBit.bufShl 1).answer .ok 0, _, oneBit_inv, rfl, rfl, fun h => absurd h.B (by decide)⟩

/-- R84: the second exclusive or sets the bit that the first cleared. -/
theorem repeatDiffers_bbXorw : RepeatDiffers (.bbXorw 1) :=
  ⟨oneBit, (oneBit.bufXor32 1).answer .ok 0, _, oneBit_inv, rfl, rfl, fun h => absurd h.B (by decide)⟩

/-- R146: the first step executes level 2 and the second level 1. -/
theorem repeatDiffers_hxStep : RepeatDiffers .hxStep :=
  ⟨threeLevels, threeLevels.advance.answer .ok 0, _, threeLevels_inv, rfl, rfl, fun h => absurd h.LVL (by decide)⟩

/-- Settles O16: a reading command only gives the response its architectural state determines, a listed write finds its
effect already there, and the three others have a state that tells the repetition apart. -/
theorem readsChangeNothingAndSomeWritesRepeat : Obligations.ReadsChangeNothingAndSomeWritesRepeat := by
  refine ⟨fun i s hi => ?_, fun i s hi hinv => exec_repeated hi hinv.canonical, ?_⟩
  · refine ⟨_, readResponse i s, exec_readOnly hi s, SameArch.answer s _ _, rfl, fun s' hsame => ?_⟩
    rw [exec_readOnly hi s', readResponse_congr hsame]
    exact ⟨_, rfl, SameArch.answer s' _ _, rfl⟩
  · simp only [List.forall_mem_cons, List.not_mem_nil, false_implies, implies_true, and_true]
    exact ⟨repeatDiffers_bbShl, repeatDiffers_bbXorw, repeatDiffers_hxStep⟩

end Sys2Proof.Safety
end

section
/-! SUPPORT. The encoding read through the opcode map. Every command is a row of R64 with operands (`exists_row`), and its
packet is that row's packet of those operands (`encode_build`); a packet decodes exactly by the row of its opcode, where
that row's reserved fields are zero (`decode_cases`). The round trips are then about control words and their fields. -/

namespace Sys2Proof

open Sys2Proof.Laws (ctl_ofWords)

/-! ## The words of a packet and the fields of a control word (R60, R61) -/

theorem opA_ofWords (ctl opA opB : Word) : (Packet.ofWords ctl opA opB).opA = opA := by
  rw [Packet.opA, Packet.ofWords, BitVec.extractLsb'_append_eq_of_le (by omega)]
  exact BitVec.extractLsb'_append_eq_right

theorem opB_ofWords (ctl opA opB : Word) : (Packet.ofWords ctl opA opB).opB = opB := by
  rw [Packet.opB, Packet.ofWords, BitVec.append_assoc]
  exact BitVec.extractLsb'_append_eq_left

theorem fields_ofWords (ctl opA opB : Word) :
    (Packet.ofWords ctl opA opB).fields = ⟨ctlA ctl, ctlB ctl, ctlC ctl, ctlImm ctl, opA, opB⟩ := by
  rw [Packet.fields, ctl_ofWords, opA_ofWords, opB_ofWords]

section Fields

variable (c b a op : BitVec 8) (imm : BitVec 16)

theorem ctlOpcode_immAppend : ctlOpcode (imm ++ a ++ op) = op.toNat :=
  congrArg BitVec.toNat BitVec.extractLsb'_append_eq_right

theorem ctlA_immAppend : ctlA (imm ++ a ++ op) = a.toNat := by
  rw [ctlA, BitVec.extractLsb'_append_eq_of_le (by omega)]
  exact congrArg BitVec.toNat BitVec.extractLsb'_append_eq_right

theorem ctlImm_immAppend : ctlImm (imm ++ a ++ op) = imm.toNat := by
  rw [ctlImm, BitVec.extractLsb'_append_eq_of_le (by omega), BitVec.extractLsb'_append_eq_of_le (by omega)]
  exact congrArg BitVec.toNat BitVec.extractLsb'_eq_self

theorem ctlOpcode_append : ctlOpcode (c ++ b ++ a ++ op) = op.toNat := ctlOpcode_immAppend a op (c ++ b)

theorem ctlA_append : ctlA (c ++ b ++ a ++ op) = a.toNat := ctlA_immAppend a op (c ++ b)

theorem ctlB_append : ctlB (c ++ b ++ a ++ op) = b.toNat := by
  rw [ctlB, BitVec.extractLsb'_append_eq_of_le (by omega), BitVec.extractLsb'_append_eq_of_le (by omega)]
  exact congrArg BitVec.toNat BitVec.extractLsb'_append_eq_right

theorem ctlC_append : ctlC (c ++ b ++ a ++ op) = c.toNat := by
  rw [ctlC, BitVec.extractLsb'_append_eq_of_le (by omega), BitVec.extractLsb'_append_eq_of_le (by omega)]
  exact congrArg BitVec.toNat BitVec.extractLsb'_append_eq_left

/-- R61: a control word is its fields `{c, b, a, opcode}`. -/
theorem exists_eq_append (ctl : Word) : ∃ c b a op : BitVec 8, ctl = c ++ b ++ a ++ op := by
  refine ⟨ctl.extractLsb' 24 8, ctl.extractLsb' 16 8, ctl.extractLsb' 8 8, ctl.extractLsb' 0 8, ?_⟩
  rw [BitVec.extractLsb'_append_extractLsb'_eq_extractLsb' (show 24 = 16 + 8 from rfl),
    BitVec.extractLsb'_append_extractLsb'_eq_extractLsb' (show 16 = 8 + 8 from rfl),
    BitVec.extractLsb'_append_extractLsb'_eq_extractLsb' (show 8 = 0 + 8 from rfl)]
  exact BitVec.extractLsb'_eq_self.symm

end Fields

section Numbers

variable (op a b c imm : Nat)

theorem ctlOpcode_ctlOf : ctlOpcode (ctlOf op a b c) = op % 256 := ctlOpcode_append _ _ _ _

theorem ctlA_ctlOf : ctlA (ctlOf op a b c) = a % 256 := ctlA_append _ _ _ _

theorem ctlB_ctlOf : ctlB (ctlOf op a b c) = b % 256 := ctlB_append _ _ _ _

theorem ctlC_ctlOf : ctlC (ctlOf op a b c) = c % 256 := ctlC_append _ _ _ _

theorem ctlOpcode_ctlOfImm : ctlOpcode (ctlOfImm op imm) = op % 256 := ctlOpcode_immAppend _ _ _

theorem ctlA_ctlOfImm : ctlA (ctlOfImm op imm) = 0 := ctlA_immAppend _ _ _

theorem ctlImm_ctlOfImm : ctlImm (ctlOfImm op imm) = imm % 65536 := ctlImm_immAppend _ _ _

end Numbers

/-- R61: a control word put together from its own fields. -/
theorem ctlOf_fields (ctl : Word) : ctlOf (ctlOpcode ctl) (ctlA ctl) (ctlB ctl) (ctlC ctl) = ctl := by
  obtain ⟨c, b, a, op, rfl⟩ := exists_eq_append ctl
  rw [ctlOpcode_append, ctlA_append, ctlB_append, ctlC_append, ctlOf]
  simp only [BitVec.ofNat_toNat, BitVec.setWidth_eq]

/-- R61, R62: the same in format I, whose reserved field is `a`. -/
theorem ctlOfImm_fields {ctl : Word} (ha : ctlA ctl = 0) : ctlOfImm (ctlOpcode ctl) (ctlImm ctl) = ctl := by
  obtain ⟨c, b, a, op, rfl⟩ := exists_eq_append ctl
  have ha0 : a = 0 := BitVec.eq_of_toNat_eq (ctlA_append c b a op ▸ ha)
  rw [ctlOpcode_append, ctlImm_immAppend, ctlOfImm, ha0]
  simp only [BitVec.ofNat_toNat, BitVec.setWidth_eq]
  rfl

/-! ## The fields a format uses (R62) -/

/-- The format uses the field `a`. -/
def Format.usesA : Format → Bool
  | .A | .AB | .ABC => true
  | .Z | .I => false

/-- The format uses the field `b`. -/
def Format.usesB : Format → Bool
  | .AB | .ABC => true
  | .Z | .A | .I => false

/-- The format uses the field `c`. -/
def Format.usesC : Format → Bool
  | .ABC => true
  | .Z | .A | .AB | .I => false

/-- The format uses the field `imm16`. -/
def Format.usesImm : Format → Bool
  | .I => true
  | .Z | .A | .AB | .ABC => false

theorem append_eq_zero_iff {v w : Nat} {x : BitVec v} {y : BitVec w} : x ++ y = 0 ↔ x = 0 ∧ y = 0 := by
  constructor
  · intro h
    have hx := BitVec.extractLsb'_append_eq_left (a := x) (b := y)
    have hy := BitVec.extractLsb'_append_eq_right (a := x) (b := y)
    rw [h] at hx hy
    exact ⟨hx.symm.trans BitVec.extractLsb'_zero, hy.symm.trans BitVec.extractLsb'_zero⟩
  · rintro ⟨rfl, rfl⟩
    exact BitVec.zero_append_zero

/-- The byte of a reserved mask over a field: all ones unless the field is used. -/
def reservedByte (used : Bool) : BitVec 8 := if used then 0#8 else 0xFF#8

theorem and_reservedByte_eq_zero_iff (x : BitVec 8) (used : Bool) :
    x &&& reservedByte used = 0 ↔ (used = false → x.toNat = 0) := by
  cases used with
  | true => exact iff_of_true BitVec.and_zero nofun
  | false =>
    have hones : x &&& reservedByte false = x := BitVec.and_allOnes
    rw [hones, ← BitVec.toNat_inj]
    simp

/-- R62: a format reserves the bytes of the `ctl` fields it does not use, `imm16` being `{c, b}`. -/
theorem Format.reserved_eq (f : Format) :
    f.reserved =
      reservedByte (f.usesC || f.usesImm) ++ reservedByte (f.usesB || f.usesImm) ++ reservedByte f.usesA ++ 0#8 := by
  cases f <;> rfl

/-- R62: the reserved bits are zero exactly where every `ctl` field the format does not use is. -/
theorem and_reserved_eq_zero_iff (f : Format) (ctl : Word) :
    ctl &&& f.reserved = 0 ↔
      ((f.usesC || f.usesImm) = false → ctlC ctl = 0) ∧ ((f.usesB || f.usesImm) = false → ctlB ctl = 0) ∧
        (f.usesA = false → ctlA ctl = 0) := by
  obtain ⟨c, b, a, op, rfl⟩ := exists_eq_append ctl
  have hopcode : op &&& 0#8 = 0 := BitVec.and_zero
  rw [f.reserved_eq, BitVec.and_append, BitVec.and_append, BitVec.and_append, ctlA_append, ctlB_append, ctlC_append,
    append_eq_zero_iff.trans (and_iff_left hopcode), append_eq_zero_iff, append_eq_zero_iff, and_assoc]
  simp only [and_reservedByte_eq_zero_iff]

/-! ## Rows of the opcode map (R64) -/

/-- The operands a row's command reads, every other one zero. -/
def OpcodeRow.operands (r : OpcodeRow) (f : Fields) : Fields where
  a := if r.format.usesA then f.a else 0
  b := if r.format.usesB then f.b else 0
  c := if r.format.usesC then f.c else 0
  imm := if r.format.usesImm then f.imm else 0
  opA := if r.readsA then f.opA else 0
  opB := if r.readsB then f.opB else 0

/-- R61: the control word of a row with these operands. -/
def OpcodeRow.ctl (r : OpcodeRow) (f : Fields) : Word :=
  if r.format.usesImm then ctlOfImm r.opcode (r.operands f).imm
  else ctlOf r.opcode (r.operands f).a (r.operands f).b (r.operands f).c

/-- R67: the packet of a row with these operands. -/
def OpcodeRow.packet (r : OpcodeRow) (f : Fields) : Packet :=
  Packet.ofWords (r.ctl f) (r.operands f).opA (r.operands f).opB

/-- R63: each small operand within its field. -/
structure Fields.Fit (f : Fields) : Prop where
  a : f.a < 256
  b : f.b < 256
  c : f.c < 256
  imm : f.imm < 65536

/-- Every command is a row of the map with some operands. -/
theorem exists_row (i : Instr) : ∃ r ∈ opcodeTable, ∃ f, r.build f = i := by
  have row (k : Nat) (hk : k < opcodeTable.length) (f : Fields) (h : opcodeTable[k].build f = i) :
      ∃ r ∈ opcodeTable, ∃ f, r.build f = i := ⟨_, List.getElem_mem hk, f, h⟩
  cases i with
  | bbCreate size => exact row 0 (by decide) ⟨0, 0, 0, size, 0, 0⟩ rfl
  | bbClear => exact row 1 (by decide) ⟨0, 0, 0, 0, 0, 0⟩ rfl
  | bbShl n => exact row 2 (by decide) ⟨n, 0, 0, 0, 0, 0⟩ rfl
  | bbOrw x => exact row 3 (by decide) ⟨0, 0, 0, 0, x, 0⟩ rfl
  | bbXorw x => exact row 4 (by decide) ⟨0, 0, 0, 0, x, 0⟩ rfl
  | bbSetbit pos => exact row 5 (by decide) ⟨0, 0, 0, pos, 0, 0⟩ rfl
  | bbRd64 => exact row 6 (by decide) ⟨0, 0, 0, 0, 0, 0⟩ rfl
  | bbRdb index => exact row 7 (by decide) ⟨0, 0, 0, index, 0, 0⟩ rfl
  | bbRelease => exact row 8 (by decide) ⟨0, 0, 0, 0, 0, 0⟩ rfl
  | puGray i => exact row 9 (by decide) ⟨0, 0, 0, 0, i, 0⟩ rfl
  | puIgray g => exact row 10 (by decide) ⟨0, 0, 0, 0, g, 0⟩ rfl
  | puRotl amount v => exact row 11 (by decide) ⟨amount, 0, 0, 0, v, 0⟩ rfl
  | puRotr amount v => exact row 12 (by decide) ⟨amount, 0, 0, 0, v, 0⟩ rfl
  | puBitw index v => exact row 13 (by decide) ⟨index, 0, 0, 0, v, 0⟩ rfl
  | puBitb axis index => exact row 14 (by decide) ⟨axis, index, 0, 0, 0, 0⟩ rfl
  | puPopc v => exact row 15 (by decide) ⟨0, 0, 0, 0, v, 0⟩ rfl
  | puEntry i => exact row 16 (by decide) ⟨0, 0, 0, 0, i, 0⟩ rfl
  | puDir n i => exact row 17 (by decide) ⟨n, 0, 0, 0, i, 0⟩ rfl
  | puXmask n level d => exact row 18 (by decide) ⟨n, level, d, 0, 0, 0⟩ rfl
  | puGcr n mu w => exact row 19 (by decide) ⟨n, 0, 0, 0, mu, w⟩ rfl
  | hxSetn n => exact row 20 (by decide) ⟨n, 0, 0, 0, 0, 0⟩ rfl
  | hxSetw axis width => exact row 21 (by decide) ⟨axis, width, 0, 0, 0, 0⟩ rfl
  | hxLdp axis nbytes bytes => exact row 22 (by decide) ⟨axis, nbytes, 0, 0, bytes, 0⟩ rfl
  | hxInit => exact row 23 (by decide) ⟨0, 0, 0, 0, 0, 0⟩ rfl
  | hxStep => exact row 24 (by decide) ⟨0, 0, 0, 0, 0, 0⟩ rfl
  | hxRun => exact row 25 (by decide) ⟨0, 0, 0, 0, 0, 0⟩ rfl
  | hxAbort => exact row 26 (by decide) ⟨0, 0, 0, 0, 0, 0⟩ rfl
  | csRd address => exact row 27 (by decide) ⟨0, 0, 0, address, 0, 0⟩ rfl

section Row

variable {r : OpcodeRow} (hr : r ∈ opcodeTable)
include hr

/-- R64: a command depends on the operands its row reads only. -/
theorem build_operands (f : Fields) : r.build (r.operands f) = r.build f := by
  fin_cases hr <;> rfl

/-- R67: the packet of a command is its row's. -/
theorem encode_build (f : Fields) : encode (r.build f) = r.packet f := by
  fin_cases hr <;> rfl

/-- R63: a command is well formed where the operands its row reads fit their fields. -/
theorem wellFormed_build_iff (f : Fields) : (r.build f).wellFormed = true ↔ (r.operands f).Fit := by
  have hfit : (r.operands f).Fit ↔ (fitsByte (r.operands f).a && (fitsByte (r.operands f).b &&
      (fitsByte (r.operands f).c && fitsImm (r.operands f).imm))) = true := by
    simp only [Bool.and_eq_true, decide_eq_true_eq]
    exact ⟨fun h => ⟨h.a, h.b, h.c, h.imm⟩, fun ⟨ha, hb, hc, himm⟩ => ⟨ha, hb, hc, himm⟩⟩
  rw [hfit]
  fin_cases hr <;>
    simp [Instr.wellFormed, OpcodeRow.operands, Format.usesA, Format.usesB, Format.usesC, Format.usesImm]

theorem opcode_lt : r.opcode < 256 := by
  have hall : ∀ q ∈ opcodeTable, q.opcode < 256 := by decide
  exact hall r hr

/-- R64: the opcode names the row. -/
theorem find_opcode : opcodeTable.find? (fun q => q.opcode == r.opcode) = some r := by
  fin_cases hr <;> rfl

end Row

/-! ## The decoder by rows (R65) -/

/-- R65: a packet of a row's opcode, its reserved fields zero, selects the row's command. -/
theorem decode_of_row {p : Packet} {r : OpcodeRow} (hr : r ∈ opcodeTable) (hop : r.opcode = ctlOpcode p.ctl)
    (hres : p.ctl &&& r.format.reserved = 0) : decode p = .ok (r.build p.fields) := by
  rw [decode, ← hop, find_opcode hr]
  exact if_pos hres

/-- R65: what decoding can do. A row has the packet's opcode and its reserved fields are zero: its command is selected.
No row has, or those fields are not zero: the packet is illegal. -/
theorem decode_cases (p : Packet) :
    (∃ r ∈ opcodeTable, r.opcode = ctlOpcode p.ctl ∧ p.ctl &&& r.format.reserved = 0 ∧
        decode p = .ok (r.build p.fields)) ∨
      ((∀ r ∈ opcodeTable, r.opcode = ctlOpcode p.ctl → p.ctl &&& r.format.reserved ≠ 0) ∧
        ∃ e, decode p = .error e) := by
  by_cases h : ∃ r ∈ opcodeTable, r.opcode = ctlOpcode p.ctl ∧ p.ctl &&& r.format.reserved = 0
  · obtain ⟨r, hr, hop, hres⟩ := h
    exact .inl ⟨r, hr, hop, hres, decode_of_row hr hop hres⟩
  · push Not at h
    refine .inr ⟨h, ?_⟩
    rw [decode]
    cases hfind : opcodeTable.find? (fun r => r.opcode == ctlOpcode p.ctl) with
    | none => exact ⟨_, rfl⟩
    | some r =>
      have hop : r.opcode = ctlOpcode p.ctl := by simpa using List.find?_some hfind
      exact ⟨_, if_neg (h r (List.mem_of_find?_eq_some hfind) hop)⟩

/-- The inversion of a successful decoding. -/
theorem decode_eq_ok {p : Packet} {i : Instr} (h : decode p = .ok i) :
    ∃ r ∈ opcodeTable, r.opcode = ctlOpcode p.ctl ∧ p.ctl &&& r.format.reserved = 0 ∧ i = r.build p.fields := by
  rcases decode_cases p with ⟨r, hr, hop, hres, hok⟩ | ⟨_, e, herr⟩
  · exact ⟨r, hr, hop, hres, Except.ok.inj (h.symm.trans hok)⟩
  · exact absurd (h.symm.trans herr) nofun

/-! ## The packet of a row, decoded -/

section UsesImm

variable {f : Format}

/-- R62: `imm16` takes the place of the byte fields. -/
theorem Format.usesA_of_usesImm (h : f.usesImm = true) : f.usesA = false := by
  cases f with
  | I => rfl
  | _ => exact absurd h Bool.false_ne_true

theorem Format.usesImm_of_usesB (h : f.usesB = true) : f.usesImm = false := by
  cases f with
  | I => exact absurd h Bool.false_ne_true
  | _ => rfl

theorem Format.usesImm_of_usesC (h : f.usesC = true) : f.usesImm = false := by
  cases f with
  | I => exact absurd h Bool.false_ne_true
  | _ => rfl

end UsesImm

section Unused

variable {used : Bool}

theorem ite_eq_of_unused {v : Nat} (h : used = false → v = 0) : (if used then v else 0) = v := by
  cases used with
  | true => rfl
  | false => exact (h rfl).symm

theorem ite_lt_of_lt {v n : Nat} (h : v < n) : (if used then v else 0) < n := by
  cases used with
  | true => exact h
  | false => exact Nat.zero_lt_of_lt h

theorem ite_congr_of_used {α : Type} {v w z : α} (h : used = true → v = if used then w else z) :
    (if used then v else z) = if used then w else z := by
  cases used with
  | true => exact h rfl
  | false => rfl

end Unused

section RowPacket

variable {r : OpcodeRow} {f : Fields} (hr : r ∈ opcodeTable) (hfit : (r.operands f).Fit)

theorem OpcodeRow.ctl_of_imm (h : r.format.usesImm = true) : r.ctl f = ctlOfImm r.opcode (r.operands f).imm := if_pos h

theorem OpcodeRow.ctl_of_bytes (h : r.format.usesImm = false) :
    r.ctl f = ctlOf r.opcode (r.operands f).a (r.operands f).b (r.operands f).c := if_neg (by simp [h])

include hr in
theorem ctlOpcode_rowCtl : ctlOpcode (r.ctl f) = r.opcode := by
  have hop := Nat.mod_eq_of_lt (opcode_lt hr)
  cases h : r.format.usesImm with
  | true => rw [OpcodeRow.ctl_of_imm h, ctlOpcode_ctlOfImm, hop]
  | false => rw [OpcodeRow.ctl_of_bytes h, ctlOpcode_ctlOf, hop]

include hfit

theorem ctlImm_rowCtl (h : r.format.usesImm = true) : ctlImm (r.ctl f) = (r.operands f).imm := by
  rw [OpcodeRow.ctl_of_imm h, ctlImm_ctlOfImm, Nat.mod_eq_of_lt hfit.imm]

theorem ctlB_rowCtl (h : r.format.usesImm = false) : ctlB (r.ctl f) = (r.operands f).b := by
  rw [OpcodeRow.ctl_of_bytes h, ctlB_ctlOf, Nat.mod_eq_of_lt hfit.b]

theorem ctlC_rowCtl (h : r.format.usesImm = false) : ctlC (r.ctl f) = (r.operands f).c := by
  rw [OpcodeRow.ctl_of_bytes h, ctlC_ctlOf, Nat.mod_eq_of_lt hfit.c]

theorem ctlA_rowCtl : ctlA (r.ctl f) = (r.operands f).a := by
  cases h : r.format.usesImm with
  | true =>
    rw [OpcodeRow.ctl_of_imm h, ctlA_ctlOfImm, OpcodeRow.operands, Format.usesA_of_usesImm h]
    rfl
  | false => rw [OpcodeRow.ctl_of_bytes h, ctlA_ctlOf, Nat.mod_eq_of_lt hfit.a]

/-- R62: the fields a row does not use are zero in its control word. -/
theorem rowCtl_and_reserved : r.ctl f &&& r.format.reserved = 0 := by
  refine (and_reserved_eq_zero_iff _ _).mpr ⟨fun h => ?_, fun h => ?_, fun h => ?_⟩
  · obtain ⟨hC, hI⟩ := Bool.or_eq_false_iff.mp h
    simp [ctlC_rowCtl hfit hI, OpcodeRow.operands, hC]
  · obtain ⟨hB, hI⟩ := Bool.or_eq_false_iff.mp h
    simp [ctlB_rowCtl hfit hI, OpcodeRow.operands, hB]
  · simp [ctlA_rowCtl hfit, OpcodeRow.operands, h]

/-- R61: the packet of a row carries the operands its row reads. -/
theorem operands_packet_fields : r.operands (r.packet f).fields = r.operands f := by
  have himm (h : r.format.usesImm = true) := ctlImm_rowCtl hfit h
  have hb (h : r.format.usesB = true) := ctlB_rowCtl hfit (Format.usesImm_of_usesB h)
  have hc (h : r.format.usesC = true) := ctlC_rowCtl hfit (Format.usesImm_of_usesC h)
  rw [OpcodeRow.packet, fields_ofWords]
  exact (Fields.mk.injEq ..).mpr ⟨ite_congr_of_used fun _ => ctlA_rowCtl hfit, ite_congr_of_used hb, ite_congr_of_used hc,
    ite_congr_of_used himm, ite_congr_of_used fun _ => rfl, ite_congr_of_used fun _ => rfl⟩

include hr

/-- R64: the packet of a row decodes to its command. -/
theorem decode_packet : decode (r.packet f) = .ok (r.build f) := by
  have hctl : (r.packet f).ctl = r.ctl f := ctl_ofWords _ _ _
  rw [decode_of_row hr (by rw [hctl, ctlOpcode_rowCtl hr]) (by rw [hctl, rowCtl_and_reserved hfit]),
    ← build_operands hr (r.packet f).fields, operands_packet_fields hfit, build_operands hr]

end RowPacket

/-- R61, R62: a legal packet has the control word of its row with the packet's own operands. -/
theorem rowCtl_fields {r : OpcodeRow} {p : Packet} (hop : r.opcode = ctlOpcode p.ctl)
    (hres : p.ctl &&& r.format.reserved = 0) : r.ctl p.fields = p.ctl := by
  obtain ⟨hc, hb, ha⟩ := (and_reserved_eq_zero_iff _ _).mp hres
  cases hI : r.format.usesImm with
  | true =>
    have himm : (r.operands p.fields).imm = ctlImm p.ctl := if_pos hI
    rw [OpcodeRow.ctl_of_imm hI, himm, hop, ctlOfImm_fields (ha (Format.usesA_of_usesImm hI))]
  | false =>
    rw [hI, Bool.or_false] at hb hc
    have hA : (r.operands p.fields).a = ctlA p.ctl := ite_eq_of_unused ha
    have hB : (r.operands p.fields).b = ctlB p.ctl := ite_eq_of_unused hb
    have hC : (r.operands p.fields).c = ctlC p.ctl := ite_eq_of_unused hc
    rw [OpcodeRow.ctl_of_bytes hI, hA, hB, hC, hop, ctlOf_fields]

/-- R63: what a packet carries fits. -/
theorem fit_operands_fields (r : OpcodeRow) (p : Packet) : (r.operands p.fields).Fit :=
  ⟨ite_lt_of_lt (BitVec.isLt _), ite_lt_of_lt (BitVec.isLt _), ite_lt_of_lt (BitVec.isLt _),
    ite_lt_of_lt (BitVec.isLt _)⟩

/-! ## The rows at every operand, by format (R62) -/

section Rows

variable {r : OpcodeRow} (hr : r ∈ opcodeTable)
include hr

/-- Operands that differ only where the row reads nothing make the same command. -/
theorem build_congr {f g : Fields} (h : r.operands f = r.operands g) : r.build f = r.build g := by
  rw [← build_operands hr f, h, build_operands hr g]

variable {op : BitVec 8} (hop : r.opcode = op.toNat) (x y : Word)
include hop

theorem decode_bytes (c b a : BitVec 8) (hI : r.format.usesImm = false) (hC : r.format.usesC = false → c = 0)
    (hB : r.format.usesB = false → b = 0) (hA : r.format.usesA = false → a = 0) :
    decode (y ++ x ++ (c ++ b ++ a ++ op)) = .ok (r.build ⟨a.toNat, b.toNat, c.toNat, 0, x, y⟩) := by
  have hctl : Packet.ctl (y ++ x ++ (c ++ b ++ a ++ op)) = c ++ b ++ a ++ op := ctl_ofWords _ x y
  have hfields : Packet.fields (y ++ x ++ (c ++ b ++ a ++ op)) = _ := fields_ofWords _ x y
  have hres : (c ++ b ++ a ++ op) &&& r.format.reserved = 0 := by
    rw [and_reserved_eq_zero_iff, hI, Bool.or_false, Bool.or_false, ctlA_append, ctlB_append, ctlC_append]
    exact ⟨fun h => by rw [hC h]; rfl, fun h => by rw [hB h]; rfl, fun h => by rw [hA h]; rfl⟩
  rw [decode_of_row hr (by rw [hctl, ctlOpcode_append, hop]) (by rw [hctl, hres]), hfields, ctlA_append, ctlB_append,
    ctlC_append]
  refine congrArg _ (build_congr hr ?_)
  simp only [OpcodeRow.operands, hI, Bool.false_eq_true, if_false]

theorem decode_formatZ (hf : r.format = .Z) :
    decode (y ++ x ++ (0#8 ++ 0#8 ++ 0#8 ++ op)) = .ok (r.build ⟨0, 0, 0, 0, x, y⟩) :=
  decode_bytes hr hop x y 0 0 0 (hf ▸ rfl) (fun _ => rfl) (fun _ => rfl) (fun _ => rfl)

theorem decode_formatA (hf : r.format = .A) (a : BitVec 8) :
    decode (y ++ x ++ (0#8 ++ 0#8 ++ a ++ op)) = .ok (r.build ⟨a.toNat, 0, 0, 0, x, y⟩) :=
  decode_bytes hr hop x y 0 0 a (hf ▸ rfl) (fun _ => rfl) (fun _ => rfl) (hf ▸ nofun)

theorem decode_formatAB (hf : r.format = .AB) (b a : BitVec 8) :
    decode (y ++ x ++ (0#8 ++ b ++ a ++ op)) = .ok (r.build ⟨a.toNat, b.toNat, 0, 0, x, y⟩) :=
  decode_bytes hr hop x y 0 b a (hf ▸ rfl) (fun _ => rfl) (hf ▸ nofun) (hf ▸ nofun)

theorem decode_formatABC (hf : r.format = .ABC) (c b a : BitVec 8) :
    decode (y ++ x ++ (c ++ b ++ a ++ op)) = .ok (r.build ⟨a.toNat, b.toNat, c.toNat, 0, x, y⟩) :=
  decode_bytes hr hop x y c b a (hf ▸ rfl) (hf ▸ nofun) (hf ▸ nofun) (hf ▸ nofun)

theorem decode_formatI (hf : r.format = .I) (imm : BitVec 16) :
    decode (y ++ x ++ (imm ++ 0#8 ++ op)) = .ok (r.build ⟨0, 0, 0, imm.toNat, x, y⟩) := by
  have hctl : Packet.ctl (y ++ x ++ (imm ++ 0#8 ++ op)) = imm ++ 0#8 ++ op := ctl_ofWords _ x y
  have hfields : Packet.fields (y ++ x ++ (imm ++ 0#8 ++ op)) = _ := fields_ofWords _ x y
  have hres : (imm ++ 0#8 ++ op) &&& r.format.reserved = 0 := by
    rw [and_reserved_eq_zero_iff, hf, ctlA_immAppend]
    exact ⟨nofun, nofun, fun _ => rfl⟩
  rw [decode_of_row hr (by rw [hctl, ctlOpcode_immAppend, hop]) (by rw [hctl, hres]), hfields, ctlImm_immAppend]
  refine congrArg _ (build_congr hr ?_)
  simp only [OpcodeRow.operands, hf, Format.usesA, Format.usesB, Format.usesC, Bool.false_eq_true, if_false]

end Rows

/-! ## The illegal packets (R65) -/

section Illegal

open Sys2Proof.Safety

/-- R65: an opcode is undefined where no row has it. -/
theorem undefinedOpcode_iff (op : Nat) : undefinedOpcode op ↔ ∀ r ∈ opcodeTable, r.opcode ≠ op := by
  have hrows : ∀ r ∈ opcodeTable, ¬ undefinedOpcode r.opcode := by decide
  have hlisted : ∀ op < 0x41, ¬ undefinedOpcode op → op ∈ opcodeTable.map OpcodeRow.opcode := by decide
  constructor
  · rintro h r hr rfl
    exact hrows r hr h
  · intro h
    by_contra hdef
    have hlt : op < 0x41 := by
      by_contra hge
      exact hdef (by simp only [undefinedOpcode]; omega)
    obtain ⟨r, hr, hop⟩ := List.mem_map.mp (hlisted op hlt hdef)
    exact h r hr hop

/-- R62, R65: the opcodes listed with a format are those of its rows, so the fields named with them are the ones the
row's format reserves. -/
theorem reservedSet_iff {r : OpcodeRow} (hr : r ∈ opcodeTable) {ctl : Word} (hop : r.opcode = ctlOpcode ctl) :
    reservedSet ctl ↔ ctl &&& r.format.reserved ≠ 0 := by
  have hlists : ∀ q ∈ opcodeTable,
      (q.opcode ∈ [0x11, 0x13, 0x14, 0x16, 0x18, 0x20, 0x21, 0x26, 0x27, 0x33, 0x34, 0x35, 0x36] ↔ q.format = .Z) ∧
        (q.opcode ∈ [0x12, 0x22, 0x23, 0x24, 0x28, 0x2A, 0x30] ↔ q.format = .A) ∧
          (q.opcode ∈ [0x25, 0x31, 0x32] ↔ q.format = .AB) ∧
            (q.opcode ∈ [0x10, 0x15, 0x17, 0x40] ↔ q.format = .I) := by decide
  obtain ⟨hZ, hA, hAB, hI⟩ := hlists r hr
  rw [reservedSet, ← hop, hZ, hA, hAB, hI]
  refine Iff.trans ?_ (not_congr (and_reserved_eq_zero_iff r.format ctl)).symm
  cases r.format with
  | Z =>
    simp [Format.usesA, Format.usesB, Format.usesC, Format.usesImm]
    tauto
  | A =>
    simp [Format.usesA, Format.usesB, Format.usesC, Format.usesImm]
    tauto
  | AB => simp [Format.usesA, Format.usesB, Format.usesC, Format.usesImm]
  | ABC => simp [Format.usesA, Format.usesB, Format.usesC]
  | I => simp [Format.usesA, Format.usesB, Format.usesC, Format.usesImm]

/-- R65: a packet is illegal exactly where it does not meet the row of its opcode. -/
theorem illegalPacket_iff (p : Packet) :
    IllegalPacket p ↔ ∀ r ∈ opcodeTable, r.opcode = ctlOpcode p.ctl → p.ctl &&& r.format.reserved ≠ 0 := by
  by_cases hundef : undefinedOpcode (ctlOpcode p.ctl)
  · exact iff_of_true (.inl hundef) fun r hr hop => absurd hop ((undefinedOpcode_iff _).mp hundef r hr)
  · rw [IllegalPacket, or_iff_right hundef]
    rw [undefinedOpcode_iff] at hundef
    push Not at hundef
    obtain ⟨r, hr, hop⟩ := hundef
    refine ⟨fun h q hq hqop => (reservedSet_iff hq hqop).mp h, fun h => (reservedSet_iff hr hop).mpr (h r hr hop)⟩

end Illegal

end Sys2Proof

namespace Sys2Proof.Machine

/-! ## The step on a packet (R69) -/

section Packet

variable {s : State} {p : Packet} {rest : List HostEvent} (hin : s.inputs = .packet p :: rest)
include hin

theorem step_of_packet : step s = acceptPacket p s := by
  rw [step, State.nextInput_cons hin, takeEvent]

theorem step_of_packet_ok {i : Instr} (h : decode p = .ok i) : step s = exec i s := by
  rw [step_of_packet hin, acceptPacket, h]

theorem step_of_packet_error {e : Illegal} (h : decode p = .error e) : step s = .next (s.answer .illegal 0) := by
  rw [step_of_packet hin, acceptPacket, h, State.raise_eq_answer]

end Packet

/-! ## The channel (R60): no effect reads from it or responds -/

theorem State.advance_channel (s : State) : s.advance.inputs = s.inputs ∧ s.advance.rsps = s.rsps := by
  rcases s.advance_cases with ⟨_, h⟩ | ⟨_, h⟩ <;> rw [h] <;> exact ⟨rfl, rfl⟩

theorem effectOf_channel (i : Instr) (s : State) : (effectOf i s).inputs = s.inputs ∧ (effectOf i s).rsps = s.rsps := by
  cases i with
  | hxStep => exact s.advance_channel
  | hxRun =>
    obtain ⟨_, _, _, _, _, _, _, _, _, hinputs, hrsps⟩ := s.computeIndex_frame
    exact ⟨hinputs, hrsps⟩
  | _ => exact ⟨rfl, rfl⟩

theorem effectOf_inputs (i : Instr) (s : State) : (effectOf i s).inputs = s.inputs := (effectOf_channel i s).1

theorem effectOf_rsps (i : Instr) (s : State) : (effectOf i s).rsps = s.rsps := (effectOf_channel i s).2

end Sys2Proof.Machine

namespace Sys2Proof.Safety

open Sys2Proof.Machine
open Sys2Proof.Laws (ctl_ofWords)

/-- Settles O1: the command is a row with operands that fit, and its packet is that row's. -/
theorem decodeEncodeRoundTrip : Obligations.DecodeEncodeRoundTrip := by
  intro i hwf
  obtain ⟨r, hr, f, rfl⟩ := exists_row i
  rw [encode_build hr]
  exact decode_packet hr ((wellFormed_build_iff hr f).mp hwf)

/-- Settles O2: the command is the packet's row with the packet's operands, and so is the packet encoded from it. -/
theorem decodedPacketKeepsItsFields : Obligations.DecodedPacketKeepsItsFields := by
  intro p i hdecode
  obtain ⟨r, hr, hop, hres, rfl⟩ := decode_eq_ok hdecode
  have hpacket := encode_build hr p.fields
  refine ⟨(wellFormed_build_iff hr _).mpr (fit_operands_fields r p), ?_, r, hr, hop, ?_, ?_⟩ <;> rw [hpacket]
  · exact (ctl_ofWords _ _ _).trans (rowCtl_fields hop hres)
  · exact opA_ofWords _ _ _
  · exact opB_ofWords _ _ _

/-- Settles O5: each row by the lemma of its format, with its operands in the fields the row's command reads. -/
theorem everyRowDecodesAtEveryOperand : Obligations.EveryRowDecodesAtEveryOperand := by
  intro a b c imm x y
  have row (k : Nat) (hk : k < opcodeTable.length) : opcodeTable[k] ∈ opcodeTable := List.getElem_mem hk
  exact ⟨
    decode_formatI (row 0 (by decide)) rfl x y rfl imm,
    decode_formatZ (row 1 (by decide)) rfl x y rfl,
    decode_formatA (row 2 (by decide)) rfl x y rfl a,
    decode_formatZ (row 3 (by decide)) rfl x y rfl,
    decode_formatZ (row 4 (by decide)) rfl x y rfl,
    decode_formatI (row 5 (by decide)) rfl x y rfl imm,
    decode_formatZ (row 6 (by decide)) rfl x y rfl,
    decode_formatI (row 7 (by decide)) rfl x y rfl imm,
    decode_formatZ (row 8 (by decide)) rfl x y rfl,
    decode_formatZ (row 9 (by decide)) rfl x y rfl,
    decode_formatZ (row 10 (by decide)) rfl x y rfl,
    decode_formatA (row 11 (by decide)) rfl x y rfl a,
    decode_formatA (row 12 (by decide)) rfl x y rfl a,
    decode_formatA (row 13 (by decide)) rfl x y rfl a,
    decode_formatAB (row 14 (by decide)) rfl x y rfl b a,
    decode_formatZ (row 15 (by decide)) rfl x y rfl,
    decode_formatZ (row 16 (by decide)) rfl x y rfl,
    decode_formatA (row 17 (by decide)) rfl x y rfl a,
    decode_formatABC (row 18 (by decide)) rfl x y rfl c b a,
    decode_formatA (row 19 (by decide)) rfl x y rfl a,
    decode_formatA (row 20 (by decide)) rfl x y rfl a,
    decode_formatAB (row 21 (by decide)) rfl x y rfl b a,
    decode_formatAB (row 22 (by decide)) rfl x y rfl b a,
    decode_formatZ (row 23 (by decide)) rfl x y rfl,
    decode_formatZ (row 24 (by decide)) rfl x y rfl,
    decode_formatZ (row 25 (by decide)) rfl x y rfl,
    decode_formatZ (row 26 (by decide)) rfl x y rfl,
    decode_formatI (row 27 (by decide)) rfl x y rfl imm⟩

/-- Settles O4: the decoder run on eight packets. -/
theorem specPacketsDecode : Obligations.SpecPacketsDecode := by
  unfold Obligations.SpecPacketsDecode
  decide

/-- Settles O6. -/
theorem responseBitsAreStatusThenData : Obligations.ResponseBitsAreStatusThenData :=
  ⟨fun _ => ⟨BitVec.extractLsb'_append_eq_right, BitVec.extractLsb'_append_eq_left⟩, rfl⟩

/-- Settles O7. -/
theorem stepRunsTheDecodedCommand : Obligations.StepRunsTheDecodedCommand := by
  intro s p rest i hin hdecode
  exact step_of_packet_ok hin hdecode

/-- Settles O3: a packet that meets no row is answered ILLEGAL; every other one selects the row's command. -/
theorem illegalPacketsAreAnsweredIllegal : Obligations.IllegalPacketsAreAnsweredIllegal := by
  intro s p rest hin
  rw [illegalPacket_iff]
  rcases decode_cases p with ⟨r, hr, hop, hres, hok⟩ | ⟨hnone, e, herr⟩
  · exact ⟨fun hill => absurd hres (hill r hr hop), fun _ => ⟨_, hok, step_of_packet_ok hin hok⟩⟩
  · refine ⟨fun _ => ?_, fun hlegal => absurd hnone hlegal⟩
    rw [step_of_packet_error hin herr, State.answer, hin, List.tail_cons]

/-- Settles O11: an illegal packet and a command's refusal are answered with data 0, a command that passes with OK. -/
theorem everyPacketIsAnsweredOnce : Obligations.EveryPacketIsAnsweredOnce := by
  intro s p rest hin
  have htail : s.inputs.tail = rest := by rw [hin, List.tail_cons]
  have hrefusal (status : Status) (hstep : step s = .next (s.answer status 0)) :
      ∃ t r, step s = .next t ∧ t.inputs = rest ∧ t.rsps = s.rsps ++ [r] ∧ (r.status ≠ .ok → r.data = 0) ∧
        t.cfg = s.cfg := ⟨_, ⟨status, 0⟩, hstep, htail, rfl, fun _ => rfl, rfl⟩
  cases hdecode : decode p with
  | error e => exact hrefusal .illegal (step_of_packet_error hin hdecode)
  | ok i =>
    have hstep := step_of_packet_ok hin hdecode
    rcases exec_cases i s with ⟨status, hexec⟩ | ⟨data, _, hexec⟩
    · exact hrefusal status (hstep.trans hexec)
    · refine ⟨_, ⟨.ok, data⟩, hstep.trans hexec, ?_, ?_, fun h => absurd rfl h, effectOf_cfg i s⟩
      · rw [State.answer_inputs, effectOf_inputs, htail]
      · rw [State.answer_rsps, effectOf_rsps]

end Sys2Proof.Safety
end

section
/-! SUPPORT. The pseudo-commands (R68): their expansions run command by command, each shift multiplying the buffer's value
(R81), each bb.setbit setting one bit of a byte, and hx.setw and hx.ldp writing the registers of one axis. -/

namespace Sys2Proof.Machine

open Sys2Proof.Safety

/-! ## Runs and the commands that pass -/

theorem runCommands_cons {i : Instr} {s t : State} (h : exec i s = .next t) (rest : List Instr) :
    runCommands (i :: rest) s = runCommands rest t := by
  rw [runCommands, h]

theorem exec_bbShl_of_idle {s : State} {n : Nat} (hidle : s.ACT = false) (hbuf : s.BV = true) (hn : n < 8) :
    exec (.bbShl n) s = .next ((s.bufShl n).answer .ok 0) :=
  complete_of_pass (by simp [State.busy, State.noBuffer, invalidIf, hidle, hbuf, hn])

theorem exec_bbSetbit_of_idle {s : State} {pos : Nat} (hidle : s.ACT = false) (hbuf : s.BV = true)
    (hpos : pos < 8 * s.S.toNat) : exec (.bbSetbit pos) s = .next ((s.bufSetBit pos).answer .ok 0) :=
  complete_of_pass (by simp [State.busy, State.noBuffer, rangeIf, hidle, hbuf, hpos])

theorem exec_hxSetw_of_idle {s : State} {axis : Nat} (hidle : s.ACT = false) (haxis : axis < 32) (width : Nat) :
    exec (.hxSetw axis width) s = .next ((s.setWidth axis (BitVec.ofNat 8 width)).answer .ok 0) :=
  complete_of_pass (by simp [State.busy, invalidIf, hidle, haxis])

theorem exec_hxLdp_of_idle {s : State} {axis nbytes : Nat} (hidle : s.ACT = false) (haxis : axis < 32)
    (hn : nbytes ≤ 4) (bytes : Word) :
    exec (.hxLdp axis nbytes bytes) s =
      .next (((s.setPoint axis (suppliedBytes bytes nbytes)).setPlen axis (BitVec.ofNat 3 nbytes)).answer .ok 0) :=
  complete_of_pass (by simp [State.busy, invalidIf, hidle, haxis, hn])

/-! ## A shift multiplies (R81) -/

/-- R80: new bit `p` is old bit `p - n`, and 0 below `n`. -/
theorem bufferBit_shl (m : Memory) {size n p : Nat} (hn : n < 8) (hp : p < 8 * size) :
    bufferBit (m.shl size n) p = (decide (n ≤ p) && bufferBit m (p - n)) := by
  have hbit : p % 8 < 8 := Nat.mod_lt _ (by decide)
  rw [bufferBit, bufferBit, Memory.read_shl, if_pos (by omega), BitVec.getLsbD_or, BitVec.getLsbD_shiftLeft]
  by_cases hlow : n ≤ p % 8
  · have hbelow : (if p / 8 = 0 then 0 else m.read (p / 8 - 1) >>> (8 - n)).getLsbD (p % 8) = false := by
      split_ifs
      · exact BitVec.getLsbD_zero
      · rw [BitVec.getLsbD_ushiftRight, BitVec.getLsbD_of_ge _ _ (by omega)]
    have hbyte : (p - n) / 8 = p / 8 := by omega
    have hpos : (p - n) % 8 = p % 8 - n := by omega
    rw [hbelow, hbyte, hpos, decide_eq_true hbit, decide_eq_false (Nat.not_lt.mpr hlow),
      decide_eq_true (show n ≤ p by omega)]
    simp only [Bool.not_false, Bool.true_and, Bool.or_false]
  · rw [decide_eq_true (Nat.lt_of_not_le hlow)]
    by_cases hfirst : p / 8 = 0
    · simp [hfirst, show ¬ n ≤ p by omega]
    · have hbyte : (p - n) / 8 = p / 8 - 1 := by omega
      have hpos : (p - n) % 8 = 8 - n + p % 8 := by omega
      simp [hfirst, hbyte, hpos, show n ≤ p by omega]

theorem Memory.readN_zero_testBit (m : Memory) (n b : Nat) :
    (m.readN 0 n).testBit b = (decide (b < 8 * n) && bufferBit m b) := by
  rw [Memory.readN_testBit, Nat.zero_add, bufferBit]

/-- R81: the value is multiplied by `2^n` modulo its width. -/
theorem Memory.readN_shl (m : Memory) (size : Nat) {n : Nat} (hn : n < 8) :
    (m.shl size n).readN 0 size = (m.readN 0 size * 2 ^ n) % 2 ^ (8 * size) := by
  apply Nat.eq_of_testBit_eq
  intro p
  rw [Nat.testBit_mod_two_pow, Nat.testBit_mul_two_pow, Memory.readN_zero_testBit, Memory.readN_zero_testBit]
  by_cases hp : p < 8 * size
  · rw [bufferBit_shl m hn hp]
    simp [hp, show p - n < 8 * size by omega]
  · simp [hp]

/-! ## bb.shln -/

/-- `t` is `s` after shifts of `k` bits in all by `count` commands. -/
structure ShiftedBy (k count : Nat) (s t : State) : Prop where
  value : t.value = (s.value * 2 ^ k) % 2 ^ (8 * s.S.toNat)
  above : ∀ j, s.S.toNat ≤ j → t.byte j = s.byte j
  S : t.S = s.S
  BV : t.BV = s.BV
  ACT : t.ACT = s.ACT
  rsps : t.rsps = s.rsps ++ List.replicate count ⟨.ok, 0⟩

theorem ShiftedBy.refl (s : State) : ShiftedBy 0 0 s s where
  value := by
    rw [Nat.pow_zero, Nat.mul_one]
    exact (Nat.mod_eq_of_lt (s.B.readN_lt 0 s.S.toNat)).symm
  above := fun _ _ => rfl
  S := rfl
  BV := rfl
  ACT := rfl
  rsps := (List.append_nil _).symm

/-- One shift first, and the others after it. -/
theorem ShiftedBy.cons {s t : State} {n k count : Nat} (hn : n < 8)
    (h : ShiftedBy k count ((s.bufShl n).answer .ok 0) t) : ShiftedBy (n + k) (count + 1) s t where
  value := by
    have hfirst : ((s.bufShl n).answer .ok 0).value = (s.value * 2 ^ n) % 2 ^ (8 * s.S.toNat) :=
      s.B.readN_shl s.S.toNat hn
    rw [h.value, hfirst, State.answer_S, State.bufShl_S, Nat.mod_mul_mod, Nat.mul_assoc, Nat.pow_add]
  above := fun j hj => (h.above j hj).trans ((s.B.read_shl _ n j).trans (if_neg (Nat.not_lt.mpr hj)))
  S := h.S
  BV := h.BV
  ACT := h.ACT
  rsps := by
    rw [h.rsps, State.answer_rsps, State.bufShl_rsps, List.append_assoc, List.replicate_succ, List.singleton_append]

/-- On an idle block with a buffer a run of shifts completes and shifts by their sum. -/
theorem runCommands_shifts : ∀ (amounts : List Nat) (s : State), (∀ n ∈ amounts, n < 8) → s.ACT = false →
    s.BV = true → ∃ t, runCommands (amounts.map .bbShl) s = some t ∧ ShiftedBy amounts.sum amounts.length s t
  | [], s, _, _, _ => ⟨s, rfl, ShiftedBy.refl s⟩
  | n :: rest, s, hamounts, hidle, hbuf => by
    have hn : n < 8 := hamounts n List.mem_cons_self
    obtain ⟨t, hrun, hshift⟩ := runCommands_shifts rest ((s.bufShl n).answer .ok 0)
      (fun q hq => hamounts q (List.mem_cons_of_mem _ hq)) hidle hbuf
    rw [List.map_cons, runCommands_cons (exec_bbShl_of_idle hidle hbuf hn), List.sum_cons, List.length_cons]
    exact ⟨t, hrun, hshift.cons hn⟩

/-- R68: the amounts of the shifts that `bb.shln k` expands to. -/
def shiftAmounts (k : Nat) : List Nat := List.replicate (k / 7) 7 ++ if k % 7 = 0 then [] else [k % 7]

theorem expand_bbShln (k : Nat) : Pseudo.expand (.bbShln k) = (shiftAmounts k).map .bbShl := by
  rw [Pseudo.expand, shiftAmounts, List.map_append, List.map_replicate]
  split_ifs <;> rfl

theorem shiftAmounts_lt (k : Nat) : ∀ n ∈ shiftAmounts k, n < 8 := by
  intro n hn
  rcases List.mem_append.mp hn with hseven | hrest
  · rw [List.eq_of_mem_replicate hseven]
    decide
  · split_ifs at hrest with h
    · exact absurd hrest List.not_mem_nil
    · rw [List.mem_singleton.mp hrest]
      omega

theorem shiftAmounts_sum (k : Nat) : (shiftAmounts k).sum = k := by
  have hrest : (if k % 7 = 0 then [] else [k % 7]).sum = k % 7 := by
    split_ifs with h <;> simp [h]
  rw [shiftAmounts, List.sum_append, List.sum_replicate, hrest, smul_eq_mul, Nat.div_add_mod']

theorem shiftAmounts_length (k : Nat) : (shiftAmounts k).length = k / 7 + if k % 7 = 0 then 0 else 1 := by
  rw [shiftAmounts, List.length_append, List.length_replicate]
  split_ifs <;> rfl

/-! ## bb.setbyte -/

/-- `t` has the bits `bits` of byte `index` set besides those of `s`, and no other byte changed. -/
structure BitsSet (index : Nat) (bits : List Nat) (s t : State) : Prop where
  byte : ∀ b, b < 8 → (t.byte index).getLsbD b = (decide (b ∈ bits) || (s.byte index).getLsbD b)
  others : ∀ k, k ≠ index → t.byte k = s.byte k

theorem BitsSet.refl (index : Nat) (s : State) : BitsSet index [] s s := ⟨fun _ _ => by simp, fun _ _ => rfl⟩

/-- R91, in a byte given by its index. -/
theorem byte_bufSetBit (s : State) (index k : Nat) {bit : Nat} (hbit : bit < 8) :
    (s.bufSetBit (8 * index + bit)).byte k = if k = index then s.byte k ||| (1#8 <<< bit) else s.byte k := by
  have hbyte : (8 * index + bit) / 8 = index := by omega
  have hpos : (8 * index + bit) % 8 = bit := by omega
  rw [State.byte, State.bufSetBit_B, Memory.read_setBit, hbyte, hpos, State.byte]

/-- One bit first, and the others after it. -/
theorem BitsSet.cons {index bit : Nat} {bits : List Nat} {s t : State} (hbit : bit < 8)
    (h : BitsSet index bits ((s.bufSetBit (8 * index + bit)).answer .ok 0) t) : BitsSet index (bit :: bits) s t where
  byte := by
    intro b hb
    have hfirst : ((s.bufSetBit (8 * index + bit)).answer .ok 0).byte index = s.byte index ||| (1#8 <<< bit) :=
      (byte_bufSetBit s index index hbit).trans (if_pos rfl)
    have hone : (1#8 <<< bit).getLsbD b = decide (b = bit) := by
      rw [BitVec.getLsbD_shiftLeft, BitVec.getLsbD_one, decide_eq_true hb, Bool.eq_iff_iff]
      simp only [Bool.and_eq_true, Bool.not_eq_true', decide_eq_true_eq, decide_eq_false_iff_not, true_and]
      omega
    rw [h.byte b hb, hfirst, BitVec.getLsbD_or, hone]
    simp [Bool.or_assoc, Bool.or_comm, Bool.or_left_comm]
  others := fun k hk => (h.others k hk).trans ((byte_bufSetBit s index k hbit).trans (if_neg hk))

/-- On an idle block with a buffer that has the byte, a run of bb.setbit completes and sets those bits. -/
theorem runCommands_setbits {index : Nat} : ∀ (bits : List Nat) (s : State), (∀ bit ∈ bits, bit < 8) → s.ACT = false →
    s.BV = true → index < s.S.toNat →
      ∃ t, runCommands (bits.map fun bit => .bbSetbit (8 * index + bit)) s = some t ∧ BitsSet index bits s t
  | [], s, _, _, _, _ => ⟨s, rfl, BitsSet.refl index s⟩
  | bit :: rest, s, hbits, hidle, hbuf, hindex => by
    have hbit : bit < 8 := hbits bit List.mem_cons_self
    obtain ⟨t, hrun, hset⟩ := runCommands_setbits rest ((s.bufSetBit (8 * index + bit)).answer .ok 0)
      (fun q hq => hbits q (List.mem_cons_of_mem _ hq)) hidle hbuf hindex
    rw [List.map_cons, runCommands_cons (exec_bbSetbit_of_idle hidle hbuf (by omega))]
    exact ⟨t, hrun, hset.cons hbit⟩

/-! ## hx.point -/

section Axis

variable (s : State) {axis j : Nat}

theorem State.setWidth_width_other (v : BitVec 8) (h : j ≠ axis) : (s.setWidth axis v).width j = s.width j := by
  rw [State.width, State.setWidth_W, Vector.getElem?_setIfInBounds_ne h.symm, State.width]

theorem State.setPoint_point_other (v : Word) (h : j ≠ axis) : (s.setPoint axis v).point j = s.point j := by
  rw [State.point, State.setPoint_P, Vector.getElem?_setIfInBounds_ne h.symm, State.point]

theorem State.setPlen_plen_other (v : BitVec 3) (h : j ≠ axis) : (s.setPlen axis v).plen j = s.plen j := by
  rw [State.plen, State.setPlen_PLEN, Vector.getElem?_setIfInBounds_ne h.symm, State.plen]

end Axis

/-- R133: a value that fits the supplied bytes is kept. -/
theorem suppliedBytes_ofNat {value nbytes : Nat} (hn : nbytes ≤ 4) (h : value < 2 ^ (8 * nbytes)) :
    (suppliedBytes (BitVec.ofNat 32 value) nbytes).toNat = value := by
  have hle : 2 ^ (8 * nbytes) ≤ 2 ^ 32 := Nat.pow_le_pow_right (by decide) (by omega)
  have hmask : 2 ^ (8 * nbytes) - 1 < 2 ^ 32 := by have := Nat.two_pow_pos (8 * nbytes); omega
  rw [suppliedBytes, BitVec.toNat_and, BitVec.toNat_ofNat, BitVec.toNat_ofNat, Nat.mod_eq_of_lt (lt_of_lt_of_le h hle),
    Nat.mod_eq_of_lt hmask, Nat.and_two_pow_sub_one_eq_mod, Nat.mod_eq_of_lt h]

end Sys2Proof.Machine

namespace Sys2Proof.Safety

open Sys2Proof.Machine

/-- Settles O54: the expansion is a run of shifts by `k` bits in all. -/
theorem pseudoShiftIsAWideShift : Obligations.PseudoShiftIsAWideShift := by
  intro s k hidle hbuf
  obtain ⟨t, hrun, hshift⟩ := runCommands_shifts (shiftAmounts k) s (shiftAmounts_lt k) hidle hbuf
  rw [shiftAmounts_sum, shiftAmounts_length] at hshift
  rw [expand_bbShln]
  exact ⟨t, hrun, hshift.value, hshift.above, hshift.S, hshift.BV, hshift.ACT, hshift.rsps⟩

/-- Settles O55: the expansion sets the bits of the value, in a byte that had none. -/
theorem pseudoSetByteWritesAZeroByte : Obligations.PseudoSetByteWritesAZeroByte := by
  intro s index value hidle hbuf hindex hvalue hzero
  have hbits : ∀ bit ∈ (List.range 8).filter (fun t => value.testBit t), bit < 8 := fun bit hbit =>
    List.mem_range.mp (List.mem_filter.mp hbit).1
  obtain ⟨t, hrun, hset⟩ := runCommands_setbits _ s hbits hidle hbuf hindex
  refine ⟨t, hrun, ?_, hset.others⟩
  have hbyte : t.byte index = BitVec.ofNat 8 value := by
    apply BitVec.eq_of_getLsbD_eq
    intro b hb
    rw [hset.byte b hb, hzero, BitVec.getLsbD_ofNat]
    simp [hb]
  rw [hbyte, BitVec.toNat_ofNat, Nat.mod_eq_of_lt (by omega)]

/-- Settles O56: both commands pass on an idle block, the first writes the width and the second the point. -/
theorem pseudoPointLoadsOneAxis : Obligations.PseudoPointLoadsOneAxis := by
  refine ⟨fun s axis width value hidle haxis hpos hwidth hvalue => ?_, rfl⟩
  have hceil : ceil8 width ≤ 4 := by unfold ceil8; omega
  have hfits : value < 2 ^ (8 * ceil8 width) :=
    lt_of_lt_of_le hvalue (Nat.pow_le_pow_right (by decide) (by unfold ceil8; omega))
  have hstill : ((s.setWidth axis (BitVec.ofNat 8 width)).answer .ok 0).ACT = false := hidle
  rw [Pseudo.expand, runCommands_cons (exec_hxSetw_of_idle hidle haxis width),
    runCommands_cons (exec_hxLdp_of_idle hstill haxis hceil _), runCommands]
  refine ⟨_, rfl, ?_, ?_, ?_, fun j hj => ⟨?_, ?_, ?_⟩, ?_⟩
  · simp [State.setWidth_width _ _ _ haxis, Nat.mod_eq_of_lt (show width < 256 by omega)]
  · simp [State.setPoint_point _ _ _ haxis, suppliedBytes_ofNat hceil hfits]
  · rw [State.answer_plen_read, State.setPlen_plen _ _ _ haxis, if_pos rfl, BitVec.toNat_ofNat,
      Nat.mod_eq_of_lt (show ceil8 width < 2 ^ 3 by omega), ceil8]
  · simp [State.setWidth_width_other _ _ hj]
  · simp [State.setPoint_point_other _ _ hj]
  · simp [State.setPlen_plen_other _ _ hj]
  · simp

end Sys2Proof.Safety
end

section
/-! SUPPORT. The bit-buffer unit's commands (R86 to R94): the refusals said once for every command that can give them,
the wide shift and the set bit on the storage, and from that each command's result. -/

namespace Sys2Proof.Machine

open Sys2Proof.Safety

/-! ## The refusals (R173, R175) and the commands that pass -/

section Refusals

variable {i : Instr} {s : State}

/-- R178: the interlock is the first check made. -/
theorem checksOf_interlocked (s : State) (hi : interlocked i = true) : ∃ rest, checksOf i s = s.busy :: rest := by
  cases i with
  | bbCreate | bbClear | bbShl | bbOrw | bbXorw | bbSetbit | bbRelease | hxSetn | hxSetw | hxLdp | hxInit | hxRun =>
    exact ⟨_, rfl⟩
  | _ => exact absurd hi Bool.false_ne_true

/-- R175: while a computation is in progress an interlocked command is refused, whatever its operands. -/
theorem exec_interlocked_of_running (hi : interlocked i = true) (hrunning : s.ACT = true) :
    exec i s = .next (refused s .busy) := by
  obtain ⟨rest, hchecks⟩ := checksOf_interlocked s hi
  exact exec_of_fail (by simp [hchecks, State.busy, hrunning])

/-- R178: only the interlock, where the command has one, is checked before the buffer. -/
theorem checksOf_needsBuffer (s : State) (hi : needsBuffer i = true) :
    ∃ rest, checksOf i s = if interlocked i then s.busy :: s.noBuffer :: rest else s.noBuffer :: rest := by
  cases i with
  | bbClear | bbShl | bbOrw | bbXorw | bbSetbit | bbRelease | bbRd64 | bbRdb => exact ⟨_, rfl⟩
  | _ => exact absurd hi Bool.false_ne_true

/-- R173: without a buffer a command that needs one is refused, whatever its operands. -/
theorem exec_needsBuffer_of_none (hi : needsBuffer i = true) (hidle : interlocked i = true → s.ACT = false)
    (hnone : s.BV = false) : exec i s = .next (refused s .noBuffer) := by
  obtain ⟨rest, hchecks⟩ := checksOf_needsBuffer s hi
  refine exec_of_fail ?_
  rw [hchecks]
  split_ifs with hlock
  · simp [State.busy, State.noBuffer, hidle hlock, hnone]
  · simp [State.noBuffer, hnone]

/-- The two checks of a command without an operand to check. -/
theorem idleWithBuffer_pass (hidle : s.ACT = false) (hbuf : s.BV = true) :
    firstFailure [s.busy, s.noBuffer] = none := by
  simp [State.busy, State.noBuffer, hidle, hbuf]

end Refusals

theorem exec_bbXorw_of_idle {s : State} (hidle : s.ACT = false) (hbuf : s.BV = true) (x : Word) :
    exec (.bbXorw x) s = .next ((s.bufXor32 x).answer .ok 0) :=
  complete_of_pass (idleWithBuffer_pass hidle hbuf)

/-! ## The wide shift (R82) -/

theorem Memory.shlSevens_eq_iterate (size : Nat) : ∀ (count : Nat) (m : Memory),
    Memory.shlSevens size count m = (fun b : Memory => b.shl size 7)^[count] m
  | 0, _ => rfl
  | count + 1, m => Memory.shlSevens_eq_iterate size count (m.shl size 7)

theorem Memory.readN_shlSevens (size : Nat) : ∀ (count : Nat) (m : Memory),
    (Memory.shlSevens size count m).readN 0 size = (m.readN 0 size * 2 ^ (7 * count)) % 2 ^ (8 * size)
  | 0, m => by
    rw [Memory.shlSevens, Nat.mul_zero, Nat.pow_zero, Nat.mul_one]
    exact (Nat.mod_eq_of_lt (m.readN_lt 0 size)).symm
  | count + 1, m => by
    have hsum : 7 * (count + 1) = 7 + 7 * count := by omega
    rw [Memory.shlSevens, Memory.readN_shlSevens size count, m.readN_shl size (by decide), Nat.mod_mul_mod,
      Nat.mul_assoc, ← Nat.pow_add, hsum]

/-- R82: the value is multiplied by `2^k` modulo its width. -/
theorem Memory.readN_shlWide (m : Memory) (size k : Nat) :
    (m.shlWide size k).readN 0 size = (m.readN 0 size * 2 ^ k) % 2 ^ (8 * size) := by
  have hrest : k % 7 < 8 := by omega
  rw [Memory.shlWide, Memory.readN_shl _ size hrest, Memory.readN_shlSevens, Nat.mod_mul_mod, Nat.mul_assoc,
    ← Nat.pow_add, Nat.div_add_mod]

/-- A buffer whose value is 0 (R15) holds zero in every byte. -/
theorem Memory.read_eq_zero_of_readN {m : Memory} {size j : Nat} (h : m.readN 0 size = 0) (hj : j < size) :
    m.read j = 0 := by
  apply BitVec.eq_of_getLsbD_eq
  intro b hb
  have hbit := m.readN_testBit 0 size (8 * j + b)
  have hbyte : (8 * j + b) / 8 = j := by omega
  have hpos : (8 * j + b) % 8 = b := by omega
  rw [h, Nat.zero_testBit, Nat.zero_add, hbyte, hpos, decide_eq_true (by omega), Bool.true_and] at hbit
  exact hbit.symm.trans BitVec.getLsbD_zero.symm

/-- R82: a shift by the buffer's width or more leaves nothing. -/
theorem Memory.read_shlWide_of_width_le {m : Memory} {size k j : Nat} (hk : 8 * size ≤ k) (hj : j < size) :
    (m.shlWide size k).read j = 0 := by
  refine Memory.read_eq_zero_of_readN ?_ hj
  rw [Memory.readN_shlWide]
  exact Nat.mod_eq_zero_of_dvd (Dvd.dvd.mul_left (Nat.pow_dvd_pow 2 hk) _)

/-! ## The word operations (R84) and the set bit (R91) -/

/-- R90: the word's bits are changed back. -/
theorem Memory.xor32_xor32 {m : Memory} (h : m.wf) (x : Word) : (m.xor32 x).xor32 x = m := by
  refine Memory.eq_of_read_eq (Memory.wf_xor32 (Memory.wf_xor32 h x) x) h fun k => ?_
  simp only [Memory.read_xor32]
  split_ifs
  · rw [BitVec.xor_assoc, BitVec.xor_self, BitVec.xor_zero]
  · rfl

/-- R91: bit `pos` is set and every other bit is as before. -/
theorem bufferBit_setBit (m : Memory) (pos p : Nat) :
    bufferBit (m.setBit pos) p = (decide (p = pos) || bufferBit m p) := by
  rw [bufferBit, bufferBit, Memory.read_setBit]
  split_ifs with hbyte
  · have hbit : pos % 8 < 8 := Nat.mod_lt _ (by decide)
    have hiff : pos % 8 = p % 8 ↔ p = pos := by omega
    rw [BitVec.getLsbD_or, ← BitVec.twoPow_eq, BitVec.getLsbD_twoPow, decide_eq_true hbit, Bool.true_and,
      decide_eq_decide.mpr hiff, Bool.or_comm]
  · have hne : p ≠ pos := fun h => hbyte (by rw [h])
    rw [decide_eq_false hne, Bool.false_or]

/-- R66: a byte as the 64 data bits. -/
theorem zext64_byte (v : Byte) : zext64 v = 0#56 ++ v := BitVec.setWidth_eq_append (by decide)

end Sys2Proof.Machine

namespace Sys2Proof.Safety

open Sys2Proof.Machine

/-- Settles O20: R86's two checks, and the storage with no byte listed. -/
theorem createMakesAZeroBuffer : Obligations.CreateMakesAZeroBuffer := by
  refine ⟨Memory.read_nil, fun s size _ => ?_⟩
  refine ⟨exec_interlocked_of_running rfl, fun hidle hbig => ?_, fun hidle hroom => ?_⟩
  · have hcreate : s.cfg.bufBytes < createSize size := hbig
    exact exec_of_fail (by simp [checksOf, State.busy, State.tooBig, hidle, hcreate])
  · have hcreate : createSize size ≤ s.cfg.bufBytes := hroom
    exact complete_of_pass (by simp [State.busy, State.tooBig, hidle, hcreate])

/-- Settles O21: the storage cleared below `S`. -/
theorem clearZeroesTheBuffer : Obligations.ClearZeroesTheBuffer := by
  intro s
  exact ⟨exec_interlocked_of_running rfl, fun hidle => exec_needsBuffer_of_none rfl fun _ => hidle,
    fun hidle hbuf => ⟨_, complete_of_pass (idleWithBuffer_pass hidle hbuf), Memory.read_clear s.S.toNat s.B⟩⟩

/-- Settles O22: the storage shifted below `S`, bit by bit. -/
theorem shiftMovesEveryBitUp : Obligations.ShiftMovesEveryBitUp := by
  intro s n
  refine ⟨exec_interlocked_of_running rfl, fun hidle => exec_needsBuffer_of_none rfl fun _ => hidle,
    fun hidle hbuf hn => ?_, fun hidle hbuf hn => ?_⟩
  · exact exec_of_fail (by simp [checksOf, State.busy, State.noBuffer, invalidIf, hidle, hbuf, hn])
  · refine ⟨_, exec_bbShl_of_idle hidle hbuf hn, fun _ hp => bufferBit_shl s.B hn hp, fun k hk => ?_⟩
    rw [Memory.read_shl, if_neg (Nat.not_lt.mpr hk)]

/-- Settles O23: the same shift as a number and bit by bit. -/
theorem shiftIsMultiplicationModuloTheWidth : Obligations.ShiftIsMultiplicationModuloTheWidth :=
  fun m size _ hn => ⟨m.readN_shl size hn, fun _ hp => bufferBit_shl m hn hp⟩

/-- Settles O24: each of the shifts multiplies, and from the buffer's width up the product is 0 modulo the width. -/
theorem wideShiftIsMultiplicationModuloTheWidth : Obligations.WideShiftIsMultiplicationModuloTheWidth := by
  intro m size k
  refine ⟨?_, m.readN_shlWide size k, fun hk _ hj => Memory.read_shlWide_of_width_le hk hj⟩
  rw [Memory.shlWide, Memory.shlSevens_eq_iterate]

/-- Settles O25: the slice of four bytes ends at `S`, because `S` is at least 4. -/
theorem orWordWritesTheHighestFourBytes : Obligations.OrWordWritesTheHighestFourBytes := by
  intro s x
  refine ⟨exec_interlocked_of_running rfl, fun hidle => exec_needsBuffer_of_none rfl fun _ => hidle,
    fun hidle hbuf hsize => ⟨_, complete_of_pass (idleWithBuffer_pass hidle hbuf), fun t ht => ?_, fun k hk => ?_⟩⟩
  · rw [Memory.read_or32, if_pos (by omega), Nat.add_sub_cancel_left, byteLane]
  · rw [Memory.read_or32, if_neg (by omega)]

/-- Settles O26: bytes 0 to 3 by their lane; a second exclusive or with the same word undoes the first. -/
theorem xorWordWritesTheLowestFourBytes : Obligations.XorWordWritesTheLowestFourBytes := by
  refine ⟨fun s x => ⟨exec_interlocked_of_running rfl, fun hidle => exec_needsBuffer_of_none rfl fun _ => hidle,
    fun hidle hbuf => ⟨_, exec_bbXorw_of_idle hidle hbuf x, fun t ht => ?_, fun k hk => ?_⟩⟩,
    fun s x hidle hbuf hwf => ?_⟩
  · rw [Memory.read_xor32, if_pos ht, byteLane]
  · rw [Memory.read_xor32, if_neg (Nat.not_lt.mpr hk)]
  · have hagain := exec_bbXorw_of_idle (s := (s.bufXor32 x).answer .ok 0) hidle hbuf x
    rw [runCommands_cons (exec_bbXorw_of_idle hidle hbuf x), runCommands_cons hagain, runCommands]
    exact ⟨_, rfl, rfl, Memory.xor32_xor32 hwf x, rfl, rfl, rfl, rfl, rfl, rfl, rfl, rfl, rfl, rfl, rfl, rfl, rfl, rfl,
      rfl⟩

/-- Settles O27: the range check at `8S`, and one bit of the storage set. -/
theorem setBitSetsExactlyThatBit : Obligations.SetBitSetsExactlyThatBit := by
  intro s pos
  refine ⟨exec_interlocked_of_running rfl, fun hidle => exec_needsBuffer_of_none rfl fun _ => hidle,
    fun hidle hbuf hpos => ?_, fun hidle hbuf hpos => ?_⟩
  · exact exec_of_fail (by simp [checksOf, State.busy, State.noBuffer, rangeIf, hidle, hbuf, hpos])
  · exact ⟨_, exec_bbSetbit_of_idle hidle hbuf hpos, bufferBit_setBit s.B pos⟩

/-- Settles O29: ACT is not among the checks, and the response is the byte. -/
theorem readByteReturnsThatByte : Obligations.ReadByteReturnsThatByte := by
  intro s index
  refine ⟨exec_needsBuffer_of_none rfl (absurd · Bool.false_ne_true), fun hbuf hindex => ?_, fun hbuf hindex => ?_⟩
  · exact exec_of_fail (by simp [checksOf, State.noBuffer, rangeIf, hbuf, hindex])
  · rw [← zext64_byte]
    exact complete_of_pass (by simp [State.noBuffer, rangeIf, hbuf, hindex])

/-- Settles O30: the storage with no byte listed, and no buffer. -/
theorem releaseLeavesNoBuffer : Obligations.ReleaseLeavesNoBuffer := by
  intro s
  exact ⟨exec_interlocked_of_running rfl, fun hidle => exec_needsBuffer_of_none rfl fun _ => hidle,
    fun hidle hbuf => complete_of_pass (idleWithBuffer_pass hidle hbuf)⟩

end Sys2Proof.Safety
end

section
/-! SUPPORT. The primitive unit's commands (R111 to R121): what such a command answers by its checks, each function's
result bit by bit or as a count (R100 to R110), and from that each command's result and the laws of R122. -/

namespace Sys2Proof.Machine

open Sys2Proof.Safety

/-! ## What a primitive command answers (R111 to R121) -/

section Answers

variable {i : Instr} {s : State}

/-- R124: a reading command whose checks pass gives what it reads and leaves the state. -/
theorem exec_readOnly_of_pass (hi : readOnly i = true) (hpass : firstFailure (checksOf i s) = none) :
    exec i s = .next (answered s (readData i s)) := by
  rw [exec_readOnly_eq_complete hi, complete_of_pass hpass]
  rfl

/-- R66: a word as the 64 data bits. -/
theorem zext64_word (v : Word) : zext64 v = 0#32 ++ v := BitVec.setWidth_eq_append (by decide)

/-- R66: a single bit as the 64 data bits. -/
theorem zext64_ofBool (b : Bool) : zext64 (BitVec.ofBool b) = if b then 1 else 0 := by cases b <;> rfl

theorem exec_readOnly_word (hi : readOnly i = true) (hpass : firstFailure (checksOf i s) = none) {v : Word}
    (hv : readData i s = zext64 v) : exec i s = .next (answered s (0#32 ++ v)) := by
  rw [exec_readOnly_of_pass hi hpass, hv, zext64_word]

theorem exec_readOnly_bit (hi : readOnly i = true) (hpass : firstFailure (checksOf i s) = none) {b : Bool}
    (hb : readData i s = zext64 (BitVec.ofBool b)) : exec i s = .next (answered s (if b then 1 else 0)) := by
  rw [exec_readOnly_of_pass hi hpass, hb, zext64_ofBool]

/-- R171: the first operand check fails. -/
theorem exec_of_invalid {bad : Prop} [Decidable bad] {rest : List (Bool × Status)}
    (hchecks : checksOf i s = invalidIf (decide bad) :: rest) (hbad : bad) :
    exec i s = .next (refused s .invalidArgument) :=
  exec_of_fail (by rw [hchecks, decide_eq_true hbad]; rfl)

/-- R171: the only check is one of the operands, and it passes. -/
theorem operands_pass {bad : Prop} [Decidable bad] (hchecks : checksOf i s = [invalidIf (decide bad)])
    (hok : ¬ bad) : firstFailure (checksOf i s) = none := by
  rw [hchecks, decide_eq_false hok]; rfl

end Answers

/-! ## Gray code and its inverse (R100, R101, R122) -/

/-- A bit changes the parity of a count exactly when it is set. -/
theorem odd_toNat_add (b : Bool) (n : Nat) : decide ((b.toNat + n) % 2 = 1) = (b ^^ decide (n % 2 = 1)) := by
  rcases Nat.mod_two_eq_zero_or_one n with h | h <;> cases b <;> simp [h, Nat.add_mod]

/-- A chain of exclusive ors is the parity of the number of ones in it. -/
theorem foldl_xor_eq_parity (f : Nat → Bool) : ∀ (l : List Nat) (b : Bool),
    l.foldl (fun b x => b ^^ f x) b = (b ^^ decide (l.countP f % 2 = 1))
  | [], b => by simp
  | x :: rest, b => by
    have hcount : (x :: rest).countP f = (f x).toNat + rest.countP f := by
      rw [List.countP_cons, Nat.add_comm]; cases f x <;> rfl
    rw [List.foldl_cons, foldl_xor_eq_parity f rest, hcount, odd_toNat_add, Bool.xor_assoc]

/-- R101: bit `k` is the parity of the 32 bits of the word from bit `k` up, those past bit 31 being zero. -/
theorem igray_getLsbD_eq_parity (g : Word) (k : Nat) :
    (igray g).getLsbD k = decide ((List.range 32).countP (fun j => g.getLsbD (j + k)) % 2 = 1) := by
  have hrange : List.range 32 = 0 :: List.range' 1 31 := rfl
  have hfold := foldl_xor_eq_parity (fun j => g.getLsbD (j + k)) (List.range 32) false
  rw [Bool.false_xor, hrange, List.foldl_cons, Bool.false_xor, Nat.zero_add] at hfold
  rw [igray_getLsbD, hfold, hrange]

/-- Both lists count the set bits of the word from bit `k` up. -/
theorem countP_shifted (g : Word) (k : Nat) :
    (List.range 32).countP (fun j => g.getLsbD (j + k)) =
      (List.range 32).countP (fun q => decide (k ≤ q) && g.getLsbD q) := by
  have hlow : (List.range (k + 32)).countP (fun q => decide (k ≤ q) && g.getLsbD q) =
      (List.range 32).countP (fun j => g.getLsbD (j + k)) := by
    rw [List.range_add, List.countP_append, List.countP_map, List.countP_eq_zero.mpr (by simp; omega), Nat.zero_add]
    simp [Function.comp_def, Nat.add_comm k]
  rw [← hlow, Nat.add_comm, List.range_add, List.countP_append, List.countP_map]
  simp [List.countP_eq_zero]

/-- R101: a bit of the inverse Gray code from the one above it. -/
theorem igray_getLsbD_succ (g : Word) (k : Nat) :
    (igray g).getLsbD k = (g.getLsbD k ^^ (igray g).getLsbD (k + 1)) := by
  have hlast : (List.range (32 + 1)).countP (fun j => g.getLsbD (j + k)) =
      (List.range 32).countP (fun j => g.getLsbD (j + k)) := by
    rw [List.range_succ, List.countP_append, List.countP_singleton, BitVec.getLsbD_of_ge g _ (Nat.le_add_right 32 k)]
    rfl
  have hfirst : (List.range (32 + 1)).countP (fun j => g.getLsbD (j + k)) =
      (g.getLsbD k).toNat + (List.range 32).countP (fun j => g.getLsbD (j + (k + 1))) := by
    rw [List.range_succ_eq_map, List.countP_cons, List.countP_map, Nat.zero_add, Nat.add_comm]
    simp only [Function.comp_def, Nat.succ_add_eq_add_succ]
    cases g.getLsbD k <;> rfl
  rw [igray_getLsbD_eq_parity, igray_getLsbD_eq_parity, ← hlast, hfirst, odd_toNat_add]

/-- R122: the Gray code of the inverse Gray code is the word. -/
theorem gray_igray (x : Word) : gray (igray x) = x := by
  apply BitVec.eq_of_getLsbD_eq
  intro k _
  rw [gray_getLsbD, igray_getLsbD_succ, Bool.xor_assoc, Bool.xor_self, Bool.xor_false]

/-- R122: the words are finitely many, so the right inverse of `gray` is its left inverse too. -/
theorem igray_gray : ∀ x : Word, igray (gray x) = x :=
  have hleft : Function.LeftInverse gray igray := gray_igray
  hleft.rightInverse_of_injective (Finite.injective_iff_surjective.mpr hleft.surjective)

/-! ## The rotations (R102, R103) -/

theorem rotl_getLsbD (v : Word) {amount k : Nat} (ha : amount < 32) (hk : k < 32) :
    (rotl v amount).getLsbD ((k + amount) % 32) = v.getLsbD k := by
  rw [rotl_eq_rotateLeft v ha, BitVec.getLsbD_rotateLeft, Nat.mod_eq_of_lt ha]
  by_cases hwrap : k + amount < 32
  · rw [Nat.mod_eq_of_lt hwrap]
    simp [hwrap]
  · have hpos : (k + amount) % 32 = k + amount - 32 := by omega
    have hlow : k + amount - 32 < amount := by omega
    have hbit : 32 - amount + (k + amount - 32) = k := by omega
    simp [hpos, hlow, hbit]

theorem rotr_getLsbD (v : Word) {amount k : Nat} (ha : amount < 32) (hk : k < 32) :
    (rotr v amount).getLsbD k = v.getLsbD ((k + amount) % 32) := by
  rw [rotr_eq_rotateRight v ha, BitVec.getLsbD_rotateRight, Nat.mod_eq_of_lt ha]
  by_cases hwrap : k + amount < 32
  · have hlow : k < 32 - amount := by omega
    rw [Nat.mod_eq_of_lt hwrap, Nat.add_comm k]
    simp [hlow]
  · have hpos : (k + amount) % 32 = k - (32 - amount) := by omega
    have hhigh : ¬ k < 32 - amount := by omega
    rw [hpos]
    simp [hhigh, hk]

/-! ## The counts (R106, R108) -/

theorem bitsBelow_succ (v : Word) (n : Nat) : bitsBelow v (n + 1) = bitsBelow v n + (v.getLsbD n).toNat := by
  rw [bitsBelow, List.range_succ, List.countP_append, bitsBelow, List.countP_singleton]
  cases v.getLsbD n <;> rfl

theorem bitsBelow_le (v : Word) (n : Nat) : bitsBelow v n ≤ n := by
  simpa [bitsBelow] using List.countP_le_length (p := fun k => v.getLsbD k) (l := List.range n)

theorem bitsBelow_eq_card (v : Word) (n : Nat) :
    bitsBelow v n = ((Finset.range n).filter (fun k => v.getLsbD k)).card := by
  rw [← Nat.count_eq_card_filter_range]
  simp [Nat.count, bitsBelow]

/-- R106: the sum of the bits is the number of the ones. -/
theorem popcount_eq_bitsBelow (v : Word) : popcount v = bitsBelow v 32 := by
  have hsum : ∀ n, ((List.range n).map (fun k => (v.getLsbD k).toNat)).sum = bitsBelow v n := by
    intro n
    induction n with
    | zero => rfl
    | succ n ih =>
      rw [bitsBelow_succ, List.range_succ, List.map_append, List.sum_append, ih, List.map_singleton,
        List.sum_singleton]
  exact hsum 32

/-- R108: bit 0 says whether the word is odd. -/
theorem getLsbD_zero_eq_odd (i : Word) : i.getLsbD 0 = decide (i.toNat % 2 = 1) := by
  rw [← BitVec.testBit_toNat, Nat.testBit_zero]

@[simp] theorem direction_zero (n : Nat) : direction 0 n = 0 := rfl

theorem direction_of_even {i : Word} (h0 : i ≠ 0) (heven : i.toNat % 2 = 0) (n : Nat) :
    direction i n = bitsBelow (i - 1#32) 32 % n := by
  have hbit : i.getLsbD 0 = false := by rw [getLsbD_zero_eq_odd, heven]; rfl
  rw [direction, if_neg h0, if_pos hbit, popcount_eq_bitsBelow]

theorem direction_of_odd {i : Word} (hodd : i.toNat % 2 = 1) (n : Nat) : direction i n = bitsBelow i 32 % n := by
  have hbit : i.getLsbD 0 = true := by rw [getLsbD_zero_eq_odd, hodd]; rfl
  have h0 : i ≠ 0 := by rintro rfl; exact absurd hodd (by decide)
  rw [direction, if_neg h0, if_neg (ne_false_of_eq_true hbit), popcount_eq_bitsBelow]

/-! ## The entry point (R107) -/

/-- R107: clearing bit 0 is halving and doubling. -/
theorem and_clear_bit_zero (v : Word) : v &&& 0xFFFFFFFE#32 = (v >>> 1) <<< 1 := by
  have hmask : ∀ k < 32, (0xFFFFFFFE#32).getLsbD k = decide (0 < k) := by decide
  apply BitVec.eq_of_getLsbD_eq
  intro k hk
  rw [BitVec.getLsbD_and, hmask k hk, BitVec.getLsbD_shiftLeft, BitVec.getLsbD_ushiftRight]
  cases k with
  | zero => simp
  | succ k => simp [hk, Nat.add_comm 1 k]

/-- 90_conflicts.md C5: clearing bit 0 of a wrapped number wraps twice the floor of its half. -/
theorem ofInt_and_clear_bit_zero (z : Int) :
    BitVec.ofInt 32 z &&& 0xFFFFFFFE#32 = BitVec.ofInt 32 (2 * (z / 2)) := by
  apply BitVec.eq_of_toNat_eq
  rw [and_clear_bit_zero, BitVec.toNat_shiftLeft, BitVec.toNat_ushiftRight, BitVec.toNat_ofInt, BitVec.toNat_ofInt,
    Nat.shiftRight_eq_div_pow, Nat.shiftLeft_eq]
  omega

/-- R107: the word the Gray code is taken of, by the source's signed formula. -/
theorem sub_one_and_clear_bit_zero (i : Word) :
    (i - 1#32) &&& 0xFFFFFFFE#32 = BitVec.ofInt 32 (2 * ((i.toInt - 1) / 2)) := by
  have hsub : BitVec.ofInt 32 (i.toInt - 1) = i - 1#32 := by
    rw [Int.sub_eq_add_neg, BitVec.ofInt_add, BitVec.ofInt_toInt, BitVec.sub_eq_add_neg]
    rfl
  rw [← ofInt_and_clear_bit_zero, hsub]

/-! ## The mask (R109) -/

/-- R109, R120: both checks answer INVALID_ARGUMENT, so together they are one. -/
theorem firstFailure_puXmask (s : State) (n level d : Nat) :
    firstFailure (checksOf (.puXmask n level d) s) =
      if n < 1 ∨ 32 < n ∨ n ≤ d then some .invalidArgument else none := by
  simp only [checksOf, invalidIf, firstFailure_cons, firstFailure_nil, decide_eq_true_eq]
  rw [← ite_or]
  exact if_congr (by omega) rfl rfl

/-! ## The rank (R110) -/

/-- The bits gathered so far end up above those still to be gathered. -/
theorem gcrFrom_getLsbD_above (mu w : Word) : ∀ (j : Nat) (r : Word) (p : Nat), bitsBelow mu j + p < 32 →
    (gcrFrom mu w j r).getLsbD (bitsBelow mu j + p) = r.getLsbD p
  | 0, r, p, _ => by simp [gcrFrom, bitsBelow]
  | j + 1, r, p, hp => by
    rw [gcrFrom_succ]
    rw [bitsBelow_succ] at hp ⊢
    cases hmu : mu.getLsbD j with
    | false => simpa [hmu] using gcrFrom_getLsbD_above mu w j r p (by simpa [hmu] using hp)
    | true =>
      rw [hmu, Bool.toNat_true] at hp
      rw [Bool.toNat_true, Nat.add_assoc, if_pos rfl, gcrFrom_getLsbD_above mu w j _ _ (by omega)]
      have hlow : ((BitVec.ofBool (w.getLsbD j)).setWidth 32).getLsbD (1 + p) = false := by
        rw [BitVec.getLsbD_setWidth, BitVec.getLsbD_of_ge _ _ (Nat.le_add_right 1 p), Bool.and_false]
      rw [BitVec.getLsbD_or, hlow, Bool.or_false, BitVec.getLsbD_shiftLeft, Nat.add_sub_cancel_left]
      simp [show 1 + p < 32 by omega]

/-- A selected bit goes to the place that counts the selected positions below it. -/
theorem gcrFrom_getLsbD_selected (mu w : Word) {q : Nat} (hmu : mu.getLsbD q = true) : ∀ (j : Nat) (r : Word),
    j ≤ 32 → q < j → (gcrFrom mu w j r).getLsbD (bitsBelow mu q) = w.getLsbD q
  | j + 1, r, hj, hq => by
    rw [gcrFrom_succ]
    by_cases hlast : q = j
    · subst hlast
      have hle := bitsBelow_le mu q
      have hrest := gcrFrom_getLsbD_above mu w q ((r <<< 1) ||| (BitVec.ofBool (w.getLsbD q)).setWidth 32) 0 (by omega)
      rw [if_pos hmu]
      simpa using hrest
    · exact gcrFrom_getLsbD_selected mu w hmu j _ (by omega) (by omega)

/-- R110: nothing is set from the number of the selected positions up. -/
theorem gcr_toNat_lt (mu w : Word) (n : Nat) : (gcr n mu w).toNat < 2 ^ bitsBelow mu n := by
  apply Nat.lt_pow_two_of_testBit
  intro b hb
  obtain ⟨p, rfl⟩ := Nat.exists_eq_add_of_le hb
  rw [BitVec.testBit_toNat]
  by_cases hp : bitsBelow mu n + p < 32
  · rw [gcr, gcrFrom_getLsbD_above mu w n 0 p hp]
    exact BitVec.getLsbD_zero
  · exact BitVec.getLsbD_of_ge _ _ (Nat.le_of_not_lt hp)

end Sys2Proof.Machine

namespace Sys2Proof.Safety

open Sys2Proof.Machine

/-- Settles O31: the bits of the two functions; the parity counts each set bit from `k` up once. -/
theorem grayAndInverseGrayResults : Obligations.GrayAndInverseGrayResults := by
  refine ⟨fun s i => ⟨gray i, exec_readOnly_word rfl rfl rfl, ?_, fun k _ => gray_getLsbD i k⟩,
    fun s g => ⟨igray g, exec_readOnly_word rfl rfl rfl, fun k _ => ?_⟩⟩
  · rw [gray_getLsbD, BitVec.getLsbD_of_ge i 32 (Nat.le_refl 32), Bool.xor_false]
  · rw [igray_getLsbD_eq_parity, countP_shifted]

/-- Settles O32: one identity bit by bit, the other because the words are finitely many. -/
theorem grayAndInverseGrayAreInverse : Obligations.GrayAndInverseGrayAreInverse :=
  fun x => ⟨igray_gray x, gray_igray x⟩

/-- Settles O33: the check at 32, and every bit of the rotation. -/
theorem rotationsMoveEveryBit : Obligations.RotationsMoveEveryBit := by
  refine ⟨fun s amount v => ⟨fun h => exec_of_invalid rfl h, fun h => ?_⟩,
    fun s amount v => ⟨fun h => exec_of_invalid rfl h, fun h => ?_⟩⟩
  · exact ⟨_, exec_readOnly_word rfl (operands_pass rfl (Nat.not_le.mpr h)) rfl,
      fun k hk => rotl_getLsbD v h hk⟩
  · exact ⟨_, exec_readOnly_word rfl (operands_pass rfl (Nat.not_le.mpr h)) rfl,
      fun k hk => rotr_getLsbD v h hk⟩

/-- Settles O34: the checks at 32, the bit of the word, and the bit of the register's byte sequence. -/
theorem bitReadsReturnThatBit : Obligations.BitReadsReturnThatBit := by
  refine ⟨fun s index v => ⟨fun h => exec_of_invalid rfl h, fun h => ?_⟩,
    fun s axis index => ⟨fun h => exec_of_invalid rfl h, fun haxis hindex => ?_⟩⟩
  · exact exec_readOnly_bit rfl (operands_pass rfl (Nat.not_le.mpr h)) rfl
  · refine exec_readOnly_bit rfl (operands_pass rfl (by omega)) ?_
    rw [readData, bitAtBytes_pointBytes _ hindex]

/-- Settles O35: the sum of the bits is the number of positions that have a 1. -/
theorem popcountCountsTheSetBits : Obligations.PopcountCountsTheSetBits := by
  intro s v
  rw [exec_readOnly_of_pass rfl rfl, ← bitsBelow_eq_card, ← popcount_eq_bitsBelow]
  rfl

/-- Settles O36: the Gray code of `i - 1` with bit 0 cleared, which is the signed formula. -/
theorem entryIsTheGrayCodeOfTheFloor : Obligations.EntryIsTheGrayCodeOfTheFloor := by
  intro s i
  refine ⟨entry i, exec_readOnly_word rfl rfl rfl, fun h0 => if_pos h0, fun h0 x hx => ?_⟩
  rw [entry, if_neg h0, sub_one_and_clear_bit_zero, ← hx, gray]

/-- Settles O37: the check of `n`, and R108's three cases. -/
theorem directionCountsSetBitsModuloN : Obligations.DirectionCountsSetBitsModuloN := by
  intro s n i
  refine ⟨fun h => exec_of_invalid rfl (by omega), fun h1 h32 => ?_⟩
  refine ⟨direction i n, exec_readOnly_of_pass rfl (operands_pass rfl (by omega)),
    direction_lt i h1, ?_, fun h0 heven => direction_of_even h0 heven n, fun hodd => direction_of_odd hodd n⟩
  rintro rfl
  exact direction_zero n

/-- Settles O38: the two checks, and the mask bit by bit. -/
theorem maskSaysWhichAxesAreActive : Obligations.MaskSaysWhichAxesAreActive := by
  intro s n level d
  refine ⟨fun h => exec_of_fail (by rw [firstFailure_puXmask, if_pos h]), fun h1 h32 hd => ?_⟩
  have hpass : firstFailure (checksOf (.puXmask n level d) s) = none := by
    rw [firstFailure_puXmask, if_neg (by omega)]
  refine ⟨extractMask n s.W level d, exec_readOnly_word rfl hpass rfl, fun j hj => ?_⟩
  rw [extractMask_getLsbD, decide_eq_true hj, Bool.true_and, State.width]

/-- Settles O39: the check at 32, each selected bit at its place, and the bound. -/
theorem rankPacksTheSelectedBits : Obligations.RankPacksTheSelectedBits := by
  intro s n mu w
  refine ⟨fun h => exec_of_invalid rfl h, fun h => ?_⟩
  exact ⟨gcr n mu w, exec_readOnly_word rfl (operands_pass rfl (Nat.not_lt.mpr h)) rfl,
    fun j hj hmu => gcrFrom_getLsbD_selected mu w hmu n 0 h hj, gcr_toNat_lt mu w n⟩

end Sys2Proof.Safety
end

section
/-! SUPPORT. The engine's registers and the start of a computation (R131 to R136, R148): the quantities of a
configuration, what validation answers, and what the commands that validate share. -/

namespace Sys2Proof.Machine

open Sys2Proof.Safety

variable {s : State}

/-! ## The quantities of a configuration (R134) -/

theorem State.totalWidth_eq_sum (s : State) :
    s.totalWidth = ∑ j ∈ Finset.range s.N.toNat, (s.width j).toNat := rfl

/-- R134: the greatest width is the width of some axis: otherwise one less would be an upper bound too. -/
theorem State.exists_width_eq_maxWidth (hN : 1 ≤ s.N.toNat) :
    ∃ j, j < s.N.toNat ∧ (s.width j).toNat = s.maxWidth := by
  by_contra! hnone
  have hle := maxWidth_le_iff.mp (le_refl s.maxWidth)
  have hlt : ∀ j, j < s.N.toNat → (s.width j).toNat < s.maxWidth := fun j hj =>
    lt_of_le_of_ne (hle j hj) (hnone j hj)
  have hpred : s.maxWidth ≤ s.maxWidth - 1 := maxWidth_le_iff.mpr fun j hj => Nat.le_sub_one_of_lt (hlt j hj)
  have hpos := hlt 0 hN
  omega

theorem State.four_le_sizeNeeded (s : State) : 4 ≤ s.sizeNeeded := le_max_left _ _

end Sys2Proof.Machine

namespace Sys2Proof.Safety

open Sys2Proof.Machine

variable {s : State}

theorem ConfigOk.one_le_totalWidth (h : ConfigOk s) : 1 ≤ s.totalWidth := by
  have hfirst := Finset.single_le_sum (f := fun j => (s.width j).toNat) (fun _ _ => Nat.zero_le _)
    (Finset.mem_range.mpr h.axes.1)
  exact (h.widths 0 h.axes.1).1.trans hfirst

/-- R134: at most 32 axes of at most 32 bits. -/
theorem ConfigOk.totalWidth_le (h : ConfigOk s) : s.totalWidth ≤ 1024 := by
  have hsum := Finset.sum_le_card_nsmul (Finset.range s.N.toNat) (fun j => (s.width j).toNat) 32
    fun j hj => (h.widths j (Finset.mem_range.mp hj)).2
  have haxes := h.axes.2
  rw [← State.totalWidth_eq_sum, Finset.card_range, smul_eq_mul] at hsum
  omega

theorem ConfigOk.sizeNeeded_le (h : ConfigOk s) : s.sizeNeeded ≤ 128 := by
  have htotal := h.totalWidth_le
  have hbytes : ceil8 s.totalWidth ≤ 128 := by rw [ceil8]; omega
  exact max_le (by decide) hbytes

/-- R12: the size of the buffer of a computation fits the register `S`. -/
theorem ConfigOk.sizeNeeded_toNat (h : ConfigOk s) : (BitVec.ofNat 16 s.sizeNeeded).toNat = s.sizeNeeded := by
  have hsize := h.sizeNeeded_le
  rw [BitVec.toNat_ofNat, Nat.mod_eq_of_lt (by omega)]

/-- R22: the first level fits the register `LVL`. -/
theorem ConfigOk.firstLevel_toNat (h : ConfigOk s) : (BitVec.ofNat 5 (s.maxWidth - 1)).toNat = s.maxWidth - 1 := by
  have hmax := h.maxWidth_le
  rw [BitVec.toNat_ofNat, Nat.mod_eq_of_lt (by omega)]

/-! ## The commands that validate (R135, R136, R147) -/

/-- R135: the configuration is valid exactly when neither of the two checks before the allocation's fails. -/
theorem configOk_iff :
    ConfigOk s ↔ ¬ (s.N.toNat < 1 ∨ nMax < s.N.toNat) ∧ (List.range s.N.toNat).any s.axisInvalid = false := by
  simp only [List.any_eq_false, List.mem_range, State.axisInvalid, decide_eq_true_eq, not_or, not_lt]
  constructor
  · rintro ⟨haxes, hwidths, hlengths⟩
    exact ⟨haxes, fun j hj => ⟨(hwidths j hj).1, (hwidths j hj).2, hlengths j hj⟩⟩
  · rintro ⟨haxes, hj⟩
    exact ⟨haxes, fun j h => ⟨(hj j h).1, (hj j h).2.1⟩, fun j h => (hj j h).2.2⟩

/-- R178: an invalid configuration is found before the allocation is tried. -/
theorem validate_of_invalid (h : ¬ ConfigOk s) : firstFailure s.validate = some .invalidArgument := by
  simp only [State.validate, invalidIf, firstFailure_cons, decide_eq_true_eq]
  split_ifs with haxes hwidths
  · rfl
  · rfl
  · exact absurd (configOk_iff.mpr ⟨haxes, Bool.eq_false_of_not_eq_true hwidths⟩) h

/-- R172: a valid configuration fails for want of room only. -/
theorem validate_of_noRoom (h : ConfigOk s) (hroom : s.cfg.bufBytes < s.sizeNeeded) :
    firstFailure s.validate = some .allocationFailure := by
  obtain ⟨haxes, hwidths⟩ := configOk_iff.mp h
  rw [State.validate, decide_eq_false haxes, hwidths]
  simp [invalidIf, State.tooBig, hroom]

section Validating

variable {i : Instr} (hi : checksOf i s = s.busy :: s.validate) (hidle : s.ACT = false)
include hi hidle

/-- On an idle block validation decides. -/
theorem firstFailure_validating : firstFailure (checksOf i s) = firstFailure s.validate := by
  simp [hi, State.busy, hidle]

theorem exec_of_invalidConfig (h : ¬ ConfigOk s) : exec i s = .next (refused s .invalidArgument) :=
  exec_of_fail ((firstFailure_validating hi hidle).trans (validate_of_invalid h))

theorem exec_of_noRoom (h : ConfigOk s) (hroom : s.cfg.bufBytes < s.sizeNeeded) :
    exec i s = .next (refused s .allocationFailure) :=
  exec_of_fail ((firstFailure_validating hi hidle).trans (validate_of_noRoom h hroom))

end Validating

theorem CanStart.checks_pass (h : CanStart s) : firstFailure (s.busy :: s.validate) = none :=
  (firstFailure_validating (i := .hxInit) rfl h.idle).trans (s.validate_passes_iff.mpr ⟨h.config, h.room⟩)

theorem exec_hxInit_of_canStart (h : CanStart s) :
    exec .hxInit s = .next (s.startComputation.answer .ok (data64 s.sizeNeeded)) :=
  complete_of_pass h.checks_pass

theorem exec_hxRun_of_canStart (h : CanStart s) :
    exec .hxRun s = .next (s.computeIndex.answer .ok (data64 s.sizeNeeded)) :=
  complete_of_pass h.checks_pass

/-! ## The obligations -/

/-- Settles O40: an 8-bit value is stored as it is. -/
theorem setNWritesN : Obligations.SetNWritesN := by
  intro s n hn
  refine ⟨exec_interlocked_of_running rfl, fun hidle => ⟨BitVec.ofNat 8 n, ?_, ?_⟩⟩
  · rw [BitVec.toNat_ofNat, Nat.mod_eq_of_lt (by omega)]
  · exact complete_of_pass (by simp [State.busy, hidle])

/-- Settles O41: the check of the axis, and one register of the file written. -/
theorem setWidthWritesOneRegister : Obligations.SetWidthWritesOneRegister := by
  intro s axis width hwidth
  refine ⟨exec_interlocked_of_running rfl, fun hidle haxis => ?_, fun hidle haxis => ?_⟩
  · exact exec_of_fail (by simp [checksOf, State.busy, invalidIf, hidle, haxis])
  · refine ⟨_, exec_hxSetw_of_idle hidle haxis width, fun j hj => ?_⟩
    have hstored : (BitVec.ofNat 8 width).toNat = width := by
      rw [BitVec.toNat_ofNat, Nat.mod_eq_of_lt (by omega)]
    rw [Vector.getElem_setIfInBounds hj, apply_ite BitVec.toNat, hstored]
    exact if_congr eq_comm rfl rfl

/-- Settles O42: the check of both operands, and one register of each file written; the supplied bytes bit by bit. -/
theorem loadPointKeepsTheSuppliedBytes : Obligations.LoadPointKeepsTheSuppliedBytes := by
  intro s axis nbytes bytes
  refine ⟨exec_interlocked_of_running rfl, fun hidle hbad => ?_, fun hidle haxis hn => ?_⟩
  · exact exec_of_fail (by simp [checksOf, State.busy, invalidIf, hidle, hbad])
  · refine ⟨_, _, exec_hxLdp_of_idle hidle haxis hn bytes, fun j hj => ?_, fun j hj hne => ?_, fun _ b => ?_⟩
    · have hstored : (BitVec.ofNat 3 nbytes).toNat = nbytes := by
        rw [BitVec.toNat_ofNat, Nat.mod_eq_of_lt (by omega)]
      rw [State.setPoint_PLEN, Vector.getElem_setIfInBounds hj, apply_ite BitVec.toNat, hstored]
      exact if_congr eq_comm rfl rfl
    · exact Vector.getElem_setIfInBounds_ne hj hne.symm
    · rw [State.setPoint_P, Vector.getElem_setIfInBounds_self, suppliedBytes_getLsbD, Bool.and_comm]

/-- Settles O43: the sum and the attained maximum, bounded by 32 axes of 32 bits. -/
theorem configurationQuantities : Obligations.ConfigurationQuantities := fun s hN _ =>
  ⟨s.totalWidth_eq_sum, maxWidth_le_iff.mp le_rfl, State.exists_width_eq_maxWidth hN, rfl,
    fun h => ⟨h.one_le_totalWidth, h.totalWidth_le, h.one_le_maxWidth, h.maxWidth_le, h.sizeNeeded_le⟩⟩

/-- Settles O44: the refusals of a command that validates; the size and the first level fit their registers. -/
theorem initStartsAComputation : Obligations.InitStartsAComputation := by
  intro s
  refine ⟨exec_interlocked_of_running rfl, exec_of_invalidConfig rfl, exec_of_noRoom rfl, fun hidle hconfig hroom => ?_⟩
  exact ⟨_, _, hconfig.sizeNeeded_toNat, hconfig.firstLevel_toNat, exec_hxInit_of_canStart ⟨hidle, hconfig, hroom⟩⟩

/-- Settles O52: hx.abort has no check. -/
theorem abortClearsActOnly : Obligations.AbortClearsActOnly := fun _ => rfl

end Sys2Proof.Safety
end

section
/-! SUPPORT. One level of a computation (R137 to R146): the mask at the first and the last level, the rank's bound, the
append as a number, and hx.step as one level with the level control after it. -/

namespace Sys2Proof.Machine

open Sys2Proof.Safety

/-! ## The append (R143) -/

/-- R83: the word lands on the 32 bits from `8 * (size - 4)` up. -/
theorem bufferBit_or32 (m : Memory) (size : Nat) (x : Word) (p : Nat) :
    bufferBit (m.or32 size x) p =
      (bufferBit m p || (decide (8 * (size - 4) ≤ p) && x.getLsbD (p - 8 * (size - 4)))) := by
  have hbit : p % 8 < 8 := Nat.mod_lt _ (by decide)
  rw [bufferBit, bufferBit, Memory.read_or32]
  split_ifs with hslice
  · have hpos : 8 * (p / 8 - (size - 4)) + p % 8 = p - 8 * (size - 4) := by omega
    have hge : 8 * (size - 4) ≤ p := by omega
    rw [BitVec.getLsbD_or, byteLane_getLsbD, hpos, decide_eq_true hbit, decide_eq_true hge]
  · by_cases hge : 8 * (size - 4) ≤ p
    · rw [BitVec.getLsbD_of_ge x _ (by omega), Bool.and_false, Bool.or_false]
    · rw [decide_eq_false hge, Bool.false_and, Bool.or_false]

/-- R83: the value is ORed with the word at the four highest-index bytes. -/
theorem Memory.readN_or32 (m : Memory) {size : Nat} (hsize : 4 ≤ size) (x : Word) :
    (m.or32 size x).readN 0 size = m.readN 0 size ||| (x.toNat * 2 ^ (8 * (size - 4))) := by
  apply Nat.eq_of_testBit_eq
  intro p
  rw [Nat.testBit_or, Nat.testBit_mul_two_pow, BitVec.testBit_toNat, Memory.readN_zero_testBit,
    Memory.readN_zero_testBit, bufferBit_or32]
  by_cases hp : p < 8 * size
  · rw [decide_eq_true hp, Bool.true_and, Bool.true_and]
  · rw [decide_eq_false hp, BitVec.getLsbD_of_ge x _ (by omega), Bool.and_false, Bool.false_and, Bool.false_and,
      Bool.or_false]

/-- R143: the value shifted by the count of active axes, and the rank into the four highest-index bytes. -/
theorem State.level_value (s : State) (i : Nat) (hsize : 4 ≤ s.S.toNat) :
    (s.level i).value = ((s.value * 2 ^ popcount (s.levelMask i)) % 2 ^ (8 * s.S.toNat)) |||
      ((s.levelRank i).toNat * 2 ^ (8 * (s.S.toNat - 4))) :=
  (Memory.readN_or32 _ hsize _).trans (by rw [Memory.readN_shlWide, State.value])

/-! ## The rank (R142) -/

/-- The positions below `n` are among those below a greater bound. -/
theorem bitsBelow_mono (v : Word) {n n' : Nat} (h : n ≤ n') : bitsBelow v n ≤ bitsBelow v n' :=
  (List.range_sublist.mpr h).countP_le

/-- R142: the rank is of as many bits as the mask selects. -/
theorem State.levelRank_lt (s : State) (i : Nat) (hN : s.N.toNat ≤ 32) :
    (s.levelRank i).toNat < 2 ^ popcount (s.levelMask i) := by
  have hcount : bitsBelow (s.levelMask i) s.N.toNat ≤ popcount (s.levelMask i) := by
    rw [popcount_eq_bitsBelow]
    exact bitsBelow_mono _ hN
  exact (gcr_toNat_lt _ _ _).trans_le (Nat.pow_le_pow_right (by decide) hcount)

/-! ## hx.step (R146) -/

/-- R144: the new direction fits the register `D`. -/
theorem State.levelD_toNat (s : State) (i : Nat) (h1 : 1 ≤ s.N.toNat) (h32 : s.N.toNat ≤ 32) :
    (s.levelD i).toNat = (s.D.toNat + direction (s.levelWord i) s.N.toNat + 1) % s.N.toNat := by
  have hlt := Nat.mod_lt (s.D.toNat + direction (s.levelWord i) s.N.toNat + 1) h1
  rw [State.levelD, BitVec.toNat_ofNat, Nat.mod_eq_of_lt (by omega)]

/-- R145: in both cases hx.step executes the level `LVL`, and goes on exactly when there is a lower one. -/
theorem State.advance_eq {s : State} (hact : s.ACT = true) :
    s.advance = { s.level s.LVL.toNat with LVL := BitVec.ofNat 5 (s.LVL.toNat - 1), ACT := decide (s.LVL ≠ 0) } := by
  rcases s.advance_cases with ⟨hlvl, hadv⟩ | ⟨hlvl, hadv⟩ <;> rw [hadv]
  · simp [hlvl, State.level]
  · have hsub : BitVec.ofNat 5 (s.LVL.toNat - 1) = s.LVL - 1 := by bv_omega
    rw [hsub, decide_eq_true hlvl, ← hact]
    rfl

theorem exec_hxStep_of_running {s : State} (hact : s.ACT = true) :
    exec .hxStep s = .next (s.advance.answer .ok s.doneFlag) :=
  complete_of_pass (by simp [State.noComputation, hact])

end Sys2Proof.Machine

namespace Sys2Proof.Safety

open Sys2Proof.Machine

/-- R138: every axis is looked at by some bit of the mask. -/
theorem exists_rotated_eq {n d j : Nat} (hd : d < n) (hj : j < n) : ∃ k, k < n ∧ (k + d) % n = j := by
  by_cases hle : d ≤ j
  · exact ⟨j - d, by omega, by rw [Nat.sub_add_cancel hle, Nat.mod_eq_of_lt hj]⟩
  · exact ⟨j + n - d, by omega, by rw [Nat.sub_add_cancel (by omega), Nat.add_mod_right, Nat.mod_eq_of_lt hj]⟩

/-- Settles O45: the widest axis is active at the first level, and every width is above 0. -/
theorem levelMaskAtFirstAndLastLevel : Obligations.LevelMaskAtFirstAndLastLevel := by
  intro s hconfig hD
  have hbits : ∀ i k, k < 32 → (s.levelMask i).getLsbD k =
      (decide (k < s.N.toNat) && decide (i < (s.width ((k + s.D.toNat) % s.N.toNat)).toNat)) := by
    intro i k hk
    rw [State.levelMask_getLsbD, decide_eq_true hk, Bool.true_and]
  refine ⟨hbits, fun hzero => ?_, fun k hk => ?_⟩
  · obtain ⟨j, hj, hwidest⟩ := State.exists_width_eq_maxWidth hconfig.axes.1
    obtain ⟨k, hk, hrot⟩ := exists_rotated_eq hD hj
    have hactive : s.maxWidth - 1 < s.maxWidth := Nat.sub_one_lt_of_lt hconfig.one_le_maxWidth
    have hbit := hbits (s.maxWidth - 1) k (hk.trans_le hconfig.axes.2)
    rw [hzero, hrot, hwidest, decide_eq_true hk, decide_eq_true hactive] at hbit
    exact absurd hbit (by simp)
  · have hwide : 0 < (s.width ((k + s.D.toNat) % s.N.toNat)).toNat :=
      (hconfig.widths _ (Nat.mod_lt _ hconfig.axes.1)).1
    rw [hbits 0 k hk, decide_eq_true hwide, Bool.and_true]

/-- Settles O46: the effect is one level and the level control, and each stage of the level is one rule. -/
theorem stepExecutesOneLevel : Obligations.StepExecutesOneLevel := by
  refine ⟨fun s hidle => exec_of_fail (by simp [checksOf, State.noComputation, hidle]), fun s hinv hact => ?_⟩
  have hrun := hinv.running hact
  have hsize : 4 ≤ s.S.toNat := (hinv.size hrun.buffer).1
  refine ⟨_, exec_hxStep_of_running hact, ?_⟩
  rw [State.advance_eq hact]
  refine ⟨rfl, fun k hk => s.levelCross_getLsbD s.LVL.isLt hk, rotr_eq_rotateRight _ s.D.isLt, rfl, rfl,
    s.levelRank_lt _ hrun.axes.2, s.level_value _ hsize, fun k hk => s.levelAppend_above _ hsize hk,
    congrArg (s.E ^^^ ·) (rotl_eq_rotateLeft _ s.D.isLt), s.levelD_toNat _ hrun.axes.1 hrun.axes.2,
    fun hlast => ?_, fun hmore => ?_, rfl, rfl, rfl, rfl, rfl, rfl, rfl, rfl⟩
  · exact ⟨decide_eq_false (not_not.mpr hlast), by rw [hlast]; rfl,
      congrArg (fun data => s.rsps ++ [⟨.ok, data⟩]) (if_pos hlast)⟩
  · have hlevel : (BitVec.ofNat 5 (s.LVL.toNat - 1)).toNat = s.LVL.toNat - 1 := by bv_omega
    exact ⟨decide_eq_true hmore, hlevel, congrArg (fun data => s.rsps ++ [⟨.ok, data⟩]) (if_neg hmore)⟩

end Sys2Proof.Safety
end

section
/-! SUPPORT. The level loop (R145, R147): what hx.run's loop leaves, and that after hx.init and `k` commands hx.step the
levels still to run lead to the state hx.run leaves, so that after `m` of them nothing is left to run. -/

namespace Sys2Proof.Machine

open Sys2Proof.Safety

/-! ## What a level reads (R137, R150) -/

/-- The same operands of a computation. -/
structure SameAxes (s t : State) : Prop where
  N : t.N = s.N
  width : ∀ j, j < s.N.toNat → t.width j = s.width j
  point : ∀ j, j < s.N.toNat → t.point j = s.point j

/-- The same operands and accumulators: all that stages 1 to 5 and 7 of a level read. -/
structure SameStages (s t : State) : Prop extends SameAxes s t where
  E : t.E = s.E
  D : t.D = s.D

/-- The same operands, accumulators and buffer: all that a level reads. -/
structure SameComputing (s t : State) : Prop extends SameStages s t where
  B : t.B = s.B
  S : t.S = s.S

theorem crossFrom_congr {s t : State} (i : Nat) : ∀ (n : Nat) (l : Word), (∀ j, j < n → t.point j = s.point j) →
    crossFrom t i n l = crossFrom s i n l
  | 0, _, _ => rfl
  | n + 1, l, h => by
    rw [crossFrom, h n (Nat.lt_succ_self n), crossFrom_congr i n _ fun j hj => h j (Nat.lt_succ_of_lt hj), crossFrom]

section Congr

variable {s t : State} (i : Nat)

theorem SameStages.levelMask (h : SameStages s t) : t.levelMask i = s.levelMask i := by
  apply BitVec.eq_of_getLsbD_eq
  intro k _
  rw [State.levelMask_getLsbD, State.levelMask_getLsbD, h.N, h.D]
  by_cases hk : k < s.N.toNat
  · rw [h.width _ (Nat.mod_lt _ (Nat.zero_lt_of_lt hk))]
  · rw [decide_eq_false hk, Bool.false_and, Bool.false_and]

theorem SameAxes.levelCross (h : SameAxes s t) : t.levelCross i = s.levelCross i := by
  rw [State.levelCross, h.N, crossFrom_congr i _ _ h.point, State.levelCross]

theorem SameStages.levelTransform (h : SameStages s t) : t.levelTransform i = s.levelTransform i := by
  rw [State.levelTransform, h.levelCross, h.E, h.D, State.levelTransform]

theorem SameStages.levelWord (h : SameStages s t) : t.levelWord i = s.levelWord i := by
  rw [State.levelWord, h.levelTransform, State.levelWord]

theorem SameStages.levelRank (h : SameStages s t) : t.levelRank i = s.levelRank i := by
  rw [State.levelRank, h.N, h.levelMask, h.levelWord, State.levelRank]

theorem SameStages.levelE (h : SameStages s t) : t.levelE i = s.levelE i := by
  rw [State.levelE, h.E, h.D, h.levelWord, State.levelE]

theorem SameStages.levelD (h : SameStages s t) : t.levelD i = s.levelD i := by
  rw [State.levelD, h.N, h.D, h.levelWord, State.levelD]

theorem SameComputing.levelAppend (h : SameComputing s t) : t.levelAppend i = s.levelAppend i := by
  rw [State.levelAppend, h.B, h.S, h.levelMask, h.levelRank, State.levelAppend]

/-- A level makes the same of what it reads. -/
theorem SameComputing.level (h : SameComputing s t) : SameComputing (s.level i) (t.level i) where
  N := h.N
  width := h.width
  point := h.point
  E := h.levelE i
  D := h.levelD i
  B := h.levelAppend i
  S := h.S

end Congr

/-! ## The loop of levels (R147) -/

theorem State.runLevels_D_lt (m : Nat) {s : State} (h1 : 1 ≤ s.N.toNat) (h32 : s.N.toNat ≤ 32)
    (hD : s.D.toNat < s.N.toNat) : (State.runLevels m s).D.toNat < s.N.toNat :=
  (State.runLevels_induction (motive := fun t => t.N = s.N ∧ t.D.toNat < s.N.toNat)
    (fun t i ⟨hN, _⟩ => ⟨hN, hN ▸ t.levelD_lt i (hN ▸ h1) (hN ▸ h32)⟩) m s ⟨rfl, hD⟩).2

/-- R143: no level writes a byte outside the buffer. -/
theorem State.runLevels_above (m : Nat) {s : State} (hsize : 4 ≤ s.S.toNat) {k : Nat} (hk : s.S.toNat ≤ k) :
    (State.runLevels m s).byte k = s.byte k :=
  (State.runLevels_induction (motive := fun t => t.S = s.S ∧ t.byte k = s.byte k)
    (fun t i ⟨hS, hbyte⟩ => ⟨hS, (t.levelAppend_above i (hS ▸ hsize) (hS ▸ hk)).trans hbyte⟩) m s ⟨rfl, rfl⟩).2

/-- R136, R147: the state before the first level of hx.run. -/
def State.freshComputation (s : State) : State := { s.bufAlloc s.sizeNeeded with E := 0, D := 0 }

/-- R145: levels `n - 1` down to 0 and the end of the computation. -/
def State.finishLevels (n : Nat) (s : State) : State := { State.runLevels n s with LVL := 0, ACT := false }

theorem State.computeIndex_eq (s : State) : s.computeIndex = s.freshComputation.finishLevels s.maxWidth := rfl

section Control

variable (lvl : BitVec 5) (act : Bool) (inputs : List HostEvent) (rsps : List Response)

/-- No level reads the level control or the channel. -/
theorem State.level_setControl (s : State) (i : Nat) :
    State.level { s with LVL := lvl, ACT := act, inputs := inputs, rsps := rsps } i =
      { s.level i with LVL := lvl, ACT := act, inputs := inputs, rsps := rsps } := by
  have h : SameComputing s { s with LVL := lvl, ACT := act, inputs := inputs, rsps := rsps } :=
    ⟨⟨⟨rfl, fun _ _ => rfl, fun _ _ => rfl⟩, rfl, rfl⟩, rfl, rfl⟩
  rw [State.level, h.levelAppend, h.levelE, h.levelD, h.levelMask, h.levelCross, h.levelTransform, h.levelWord,
    h.levelRank, State.level]

theorem State.runLevels_setControl (m : Nat) : ∀ s : State,
    State.runLevels m { s with LVL := lvl, ACT := act, inputs := inputs, rsps := rsps } =
      { State.runLevels m s with LVL := lvl, ACT := act, inputs := inputs, rsps := rsps } := by
  induction m with
  | zero => exact fun _ => rfl
  | succ m ih =>
    intro s
    rw [State.runLevels, State.level_setControl lvl act inputs rsps, ih (s.level m), State.runLevels]

theorem State.finishLevels_setControl (n : Nat) (s : State) : SameArch (s.finishLevels n)
      (State.finishLevels n { s with LVL := lvl, ACT := act, inputs := inputs, rsps := rsps }) := by
  rw [State.finishLevels, State.finishLevels, State.runLevels_setControl lvl act inputs rsps]
  exact ⟨rfl, rfl, rfl, rfl, rfl, rfl, rfl, rfl, rfl, rfl, rfl, rfl, rfl, rfl, rfl, rfl, rfl⟩

end Control

/-- A run of commands and one more command after it. -/
theorem runCommands_concat {i : Instr} {t u : State} (hlast : exec i u = .next t) : ∀ (commands : List Instr) (s : State),
    runCommands commands s = some u → runCommands (commands ++ [i]) s = some t
  | [], s, hrun => by
    rw [runCommands, Option.some.injEq] at hrun
    rw [List.nil_append, hrun, runCommands_cons hlast, runCommands]
  | j :: rest, s, hrun => by
    rcases exec_cases j s with ⟨_, hnext⟩ | ⟨_, _, hnext⟩ <;>
    · rw [runCommands_cons hnext] at hrun
      rw [List.cons_append, runCommands_cons hnext]
      exact runCommands_concat hlast rest _ hrun

end Sys2Proof.Machine

namespace Sys2Proof.Safety

open Sys2Proof.Machine

theorem SameArch.symm {s t : State} (h : SameArch s t) : SameArch t s :=
  ⟨h.cfg.symm, h.B.symm, h.S.symm, h.BV.symm, h.N.symm, h.W.symm, h.P.symm, h.PLEN.symm, h.E.symm, h.D.symm,
    h.LVL.symm, h.ACT.symm, h.MU.symm, h.L.symm, h.T.symm, h.WV.symm, h.R.symm⟩

theorem SameArch.trans {s t u : State} (h : SameArch s t) (h' : SameArch t u) : SameArch s u :=
  ⟨h'.cfg.trans h.cfg, h'.B.trans h.B, h'.S.trans h.S, h'.BV.trans h.BV, h'.N.trans h.N, h'.W.trans h.W,
    h'.P.trans h.P, h'.PLEN.trans h.PLEN, h'.E.trans h.E, h'.D.trans h.D, h'.LVL.trans h.LVL, h'.ACT.trans h.ACT,
    h'.MU.trans h.MU, h'.L.trans h.L, h'.T.trans h.T, h'.WV.trans h.WV, h'.R.trans h.R⟩

/-! ## A stepped computation (R145) -/

/-- `u` is the state after hx.init from `s` and `k` commands hx.step: level `m - 1 - k` is next, and running the levels
that are left gives what hx.run gives. -/
structure AfterSteps (s : State) (k : Nat) (u : State) : Prop where
  ACT : u.ACT = decide (k < s.maxWidth)
  LVL : u.LVL.toNat = s.maxWidth - 1 - k
  last : 1 ≤ k → u.rsps.getLast? = some ⟨.ok, if k = s.maxWidth then 1 else 0⟩
  rest : SameArch s.computeIndex (u.finishLevels (s.maxWidth - k))

variable {s u : State} {k : Nat}

theorem AfterSteps.init (h : ConfigOk s) (data : Data) : AfterSteps s 0 (s.startComputation.answer .ok data) where
  ACT := (decide_eq_true h.one_le_maxWidth).symm
  LVL := h.firstLevel_toNat
  last := fun h0 => absurd h0 (by decide)
  rest := State.finishLevels_setControl _ _ _ _ s.maxWidth s.freshComputation

/-- R146: a step before the last leaves one level less to run. -/
theorem AfterSteps.step (h : AfterSteps s k u) (hk : k < s.maxWidth) :
    AfterSteps s (k + 1) (u.advance.answer .ok u.doneFlag) := by
  have hact : u.ACT = true := h.ACT.trans (decide_eq_true hk)
  have hlvl := h.LVL
  have hlast : u.LVL = 0 ↔ k + 1 = s.maxWidth := by
    have hzero : u.LVL = 0 ↔ u.LVL.toNat = 0 := BitVec.toNat_inj.symm
    rw [hzero, hlvl]
    omega
  have hleft : s.maxWidth - k = u.LVL.toNat + 1 := by omega
  have hleft' : s.maxWidth - (k + 1) = u.LVL.toNat := by omega
  rw [State.advance_eq hact]
  refine ⟨?_, ?_, fun _ => ?_, ?_⟩
  · exact decide_eq_decide.mpr ((not_congr hlast).trans (by omega))
  · show (BitVec.ofNat 5 (u.LVL.toNat - 1)).toNat = s.maxWidth - 1 - (k + 1)
    have hbound := u.LVL.isLt
    rw [BitVec.toNat_ofNat, Nat.mod_eq_of_lt (by omega)]
    omega
  · rw [State.answer_rsps, List.getLast?_concat, State.doneFlag]
    simp only [hlast]
  · have hrest := h.rest
    rw [hleft] at hrest
    rw [hleft']
    exact hrest.trans (State.finishLevels_setControl _ _ _ _ u.LVL.toNat (u.level u.LVL.toNat))

/-- R145: hx.init and `k` steps all complete, for every `k` up to the number of levels. -/
theorem runCommands_initSteps (h : CanStart s) : ∀ k, k ≤ s.maxWidth →
    ∃ u, runCommands (.hxInit :: List.replicate k .hxStep) s = some u ∧ AfterSteps s k u
  | 0, _ => ⟨_, runCommands_cons (exec_hxInit_of_canStart h) [], AfterSteps.init h.config _⟩
  | k + 1, hk => by
    obtain ⟨u, hrun, hafter⟩ := runCommands_initSteps h k (Nat.le_of_succ_le hk)
    have hact : u.ACT = true := hafter.ACT.trans (decide_eq_true hk)
    rw [List.replicate_succ', ← List.cons_append]
    exact ⟨_, runCommands_concat (exec_hxStep_of_running hact) _ s hrun, hafter.step hk⟩

/-- Settles O47: the refusals of a command that validates, and the frame of the loop of levels. -/
theorem runCompletesInOneCommand : Obligations.RunCompletesInOneCommand := by
  intro s
  refine ⟨exec_interlocked_of_running rfl, exec_of_invalidConfig rfl, exec_of_noRoom rfl, fun hidle hconfig hroom => ?_⟩
  have hS := hconfig.sizeNeeded_toNat
  obtain ⟨hcfg, hsize, hBV, hN, hW, hP, hPLEN, hLVL, hACT, hinputs, hrsps⟩ := s.computeIndex_frame
  refine ⟨_, exec_hxRun_of_canStart ⟨hidle, hconfig, hroom⟩, hBV, ?_, hLVL, hACT, ?_, fun k hk => ?_, hN, hW, hP, hPLEN,
    hcfg, congrArg List.tail hinputs, congrArg (· ++ _) hrsps⟩
  · rw [State.answer_S, hsize, hS]
  · exact State.runLevels_D_lt s.maxWidth (s := s.freshComputation)
      hconfig.axes.1 hconfig.axes.2 hconfig.axes.1
  · exact State.runLevels_above s.maxWidth (s := s.freshComputation)
      (s.four_le_sizeNeeded.trans_eq hS.symm) (hS.trans_le hk)

/-- Settles O48: after `m` steps no level is left, and finishing changes neither `LVL` nor `ACT`. -/
theorem runEqualsInitThenSteps : Obligations.RunEqualsInitThenSteps := by
  intro s h
  obtain ⟨u, hrun, hafter⟩ := runCommands_initSteps h s.maxWidth le_rfl
  have hLVL : u.LVL = 0 := BitVec.eq_of_toNat_eq (hafter.LVL.trans (Nat.sub_eq_zero_of_le (Nat.sub_le _ _)))
  have hACT : u.ACT = false := hafter.ACT.trans (decide_eq_false (lt_irrefl _))
  have hdone : u.finishLevels (s.maxWidth - s.maxWidth) = u := by
    rw [Nat.sub_self, State.finishLevels, State.runLevels, ← hLVL, ← hACT]
  have hsame := hafter.rest
  rw [hdone] at hsame
  exact ⟨_, u, exec_hxRun_of_canStart h, hrun, (SameArch.answer _ _ _).symm.trans hsame⟩

/-- Settles O49: what the state after hx.init and `k` steps says of `ACT`, `LVL` and the last response. -/
theorem exactlyMaxWidthStepsFinish : Obligations.ExactlyMaxWidthStepsFinish := by
  intro s k h hk
  obtain ⟨u, hrun, hafter⟩ := runCommands_initSteps h k hk
  exact ⟨u, hrun, hafter.ACT, hafter.LVL, hafter.last⟩

end Sys2Proof.Safety
end

section
/-! SUPPORT. What a computation depends on (R150), and the index it leaves in the buffer (R149): each level appends as many
bits as it has active axes, all levels together the sum of the widths, and the four highest-index bytes hold the low 32
bits of what has been appended. -/

namespace Sys2Proof.Machine

open Sys2Proof.Safety

variable {s t : State}

/-! ## The widths in use (R134) -/

/-- The widths of the axes in use, in their order. -/
def State.widths (s : State) : List Nat := (List.range s.N.toNat).map (fun j => (s.width j).toNat)

theorem State.totalWidth_eq_widths (s : State) : s.totalWidth = s.widths.sum := rfl

theorem State.maxWidth_eq_widths (s : State) : s.maxWidth = s.widths.foldl max 0 := rfl

/-! ## What a computation depends on (R150) -/

theorem SameAxes.widths (h : SameAxes s t) : t.widths = s.widths := by
  rw [State.widths, h.N]
  exact List.map_congr_left fun j hj => congrArg BitVec.toNat (h.width j (List.mem_range.mp hj))

theorem SameAxes.maxWidth (h : SameAxes s t) : t.maxWidth = s.maxWidth := by
  rw [t.maxWidth_eq_widths, h.widths, s.maxWidth_eq_widths]

theorem SameAxes.sizeNeeded (h : SameAxes s t) : t.sizeNeeded = s.sizeNeeded := by
  rw [State.sizeNeeded, t.totalWidth_eq_widths, h.widths, ← s.totalWidth_eq_widths, State.sizeNeeded]

theorem SameAxes.freshComputation (h : SameAxes s t) : SameComputing s.freshComputation t.freshComputation where
  N := h.N
  width := h.width
  point := h.point
  E := rfl
  D := rfl
  B := rfl
  S := congrArg (BitVec.ofNat 16) h.sizeNeeded

/-- The same latches of the last level (R24). -/
structure SameLatches (s t : State) : Prop where
  MU : t.MU = s.MU
  L : t.L = s.L
  T : t.T = s.T
  WV : t.WV = s.WV
  R : t.R = s.R

/-- R137: a level writes every latch from what it reads. -/
theorem SameComputing.latches (h : SameComputing s t) (i : Nat) : SameLatches (s.level i) (t.level i) :=
  ⟨h.levelMask i, h.levelCross i, h.levelTransform i, h.levelWord i, h.levelRank i⟩

theorem SameComputing.runLevels : ∀ (m : Nat) {s t : State}, SameComputing s t →
    SameComputing (State.runLevels m s) (State.runLevels m t)
  | 0, _, _, h => h
  | m + 1, _, _, h => SameComputing.runLevels m (h.level m)

/-- After at least one level nothing is left of the latches' old values. -/
theorem SameComputing.runLevels_latches : ∀ (m : Nat) {s t : State}, SameComputing s t →
    SameLatches (State.runLevels (m + 1) s) (State.runLevels (m + 1) t)
  | 0, _, _, h => h.latches 0
  | m + 1, _, _, h => SameComputing.runLevels_latches m (h.level (m + 1))

theorem appendRanks_congr (h : SameAxes s t) : ∀ (i : Nat) (e : Word) (d : BitVec 5) (n : Nat),
    appendRanks t i e d n = appendRanks s i e d n
  | 0, _, _, _ => rfl
  | i + 1, e, d, n => by
    have hstages : SameStages { s with E := e, D := d } { t with E := e, D := d } :=
      ⟨⟨h.N, h.width, h.point⟩, rfl, rfl⟩
    rw [appendRanks, hstages.levelE, hstages.levelD, hstages.levelMask, hstages.levelRank, appendRanks_congr h i,
      appendRanks]

/-! ## The bits a level appends (R138, R143) -/

/-- Counting around the cycle of `n` positions from any start counts each position once. -/
theorem countP_rotated (p : Nat → Bool) (n d : Nat) :
    (List.range n).countP (fun k => p ((k + d) % n)) = (List.range n).countP p := by
  have hcycle : (List.range n).countP (fun k => p (k % n)) = (List.range n).countP p :=
    List.countP_congr fun k hk => by rw [Nat.mod_eq_of_lt (List.mem_range.mp hk)]
  have hfirst : (List.range (d + n)).countP (fun k => p (k % n)) =
      (List.range d).countP (fun k => p (k % n)) + (List.range n).countP (fun k => p ((k + d) % n)) := by
    rw [List.range_add, List.countP_append, List.countP_map]
    simp only [Function.comp_def, Nat.add_comm d]
  have hlast : (List.range (n + d)).countP (fun k => p (k % n)) =
      (List.range n).countP (fun k => p (k % n)) + (List.range d).countP (fun k => p (k % n)) := by
    rw [List.range_add, List.countP_append, List.countP_map]
    simp only [Function.comp_def, Nat.add_mod_left]
  rw [Nat.add_comm n d] at hlast
  omega

/-- A word without a bit from `n` up has all its bits below `n`. -/
theorem bitsBelow_of_zero_above {v : Word} {n : Nat} (hzero : ∀ k, n ≤ k → v.getLsbD k = false) : ∀ k,
    bitsBelow v (n + k) = bitsBelow v n
  | 0 => rfl
  | k + 1 => by
    rw [← Nat.add_assoc, bitsBelow_succ, hzero _ (Nat.le_add_right n k), bitsBelow_of_zero_above hzero k]
    rfl

/-- R138: the mask has a bit for each axis wider than the level. -/
theorem State.popcount_levelMask (s : State) (i : Nat) (hN : s.N.toNat ≤ 32) :
    popcount (s.levelMask i) = s.widths.countP (fun w => decide (i < w)) := by
  have hbit : ∀ k, (s.levelMask i).getLsbD k =
      (decide (k < s.N.toNat) && decide (i < (s.width ((k + s.D.toNat) % s.N.toNat)).toNat)) := by
    intro k
    rw [State.levelMask_getLsbD, ← Bool.and_assoc, ← Bool.decide_and]
    exact congrArg (· && _) (decide_eq_decide.mpr (by omega))
  have hzero : ∀ k, s.N.toNat ≤ k → (s.levelMask i).getLsbD k = false := fun k hk => by
    rw [hbit, decide_eq_false (Nat.not_lt.mpr hk), Bool.false_and]
  have hall : popcount (s.levelMask i) = bitsBelow (s.levelMask i) s.N.toNat := by
    rw [popcount_eq_bitsBelow, ← Nat.add_sub_cancel' hN, bitsBelow_of_zero_above hzero]
  rw [hall, State.widths, List.countP_map, ← countP_rotated _ s.N.toNat s.D.toNat, bitsBelow]
  refine List.countP_congr fun k hk => ?_
  rw [hbit, decide_eq_true (List.mem_range.mp hk), Bool.true_and]
  rfl

/-! ## The index as a number (R149) -/

/-- The bits of these widths that lie below a level. -/
def bitsBelowLevel (widths : List Nat) (level : Nat) : Nat := (widths.map (min · level)).sum

@[simp] theorem bitsBelowLevel_zero (widths : List Nat) : bitsBelowLevel widths 0 = 0 := by
  simp [bitsBelowLevel]

theorem bitsBelowLevel_succ (level : Nat) : ∀ widths : List Nat,
    bitsBelowLevel widths (level + 1) = widths.countP (fun w => decide (level < w)) + bitsBelowLevel widths level
  | [] => rfl
  | w :: rest => by
    have ih := bitsBelowLevel_succ level rest
    simp only [bitsBelowLevel, List.map_cons, List.sum_cons, List.countP_cons, decide_eq_true_eq] at ih ⊢
    split_ifs <;> omega

theorem State.bitsBelowLevel_maxWidth (s : State) : bitsBelowLevel s.widths s.maxWidth = s.totalWidth := by
  have hbound := (foldl_max_le_iff (l := s.widths) (a := 0)).mp (le_refl s.maxWidth)
  rw [bitsBelowLevel, List.map_congr_left fun w hw => min_eq_left (hbound.2 w hw), List.map_id', s.totalWidth_eq_widths]

/-- R149: the ranks of the levels below `i` take as many bits as the widths have below `i`. -/
theorem appendRanks_lt (hN : s.N.toNat ≤ 32) : ∀ (i : Nat) (e : Word) (d : BitVec 5) (h bits : Nat), h < 2 ^ bits →
    appendRanks s i e d h < 2 ^ (bits + bitsBelowLevel s.widths i)
  | 0, _, _, h, bits, hh => by rwa [appendRanks, bitsBelowLevel_zero]
  | i + 1, e, d, h, bits, hh => by
    have hcount := State.popcount_levelMask { s with E := e, D := d } i hN
    have hrank := State.levelRank_lt { s with E := e, D := d } i hN
    have hwidths : State.widths { s with E := e, D := d } = s.widths := rfl
    rw [hcount, hwidths] at hrank
    rw [appendRanks, hcount, hwidths, bitsBelowLevel_succ, ← Nat.add_assoc]
    refine appendRanks_lt hN i _ _ _ _ ?_
    rw [Nat.pow_add]
    exact Nat.lt_of_lt_of_le (Nat.add_lt_add_left hrank _) (by rw [← Nat.succ_mul]; exact Nat.mul_le_mul_right _ hh)

/-! ## The index in the buffer (R143, R149) -/

/-- Appending to the low 32 bits, held `base` bits up in a buffer that ends with them. -/
theorem append_low_bits {h r k : Nat} (base : Nat) (hk : k ≤ 32) (hr : r < 2 ^ k) :
    ((h % 2 ^ 32 * 2 ^ base * 2 ^ k) % 2 ^ (32 + base)) ||| (r * 2 ^ base) = (h * 2 ^ k + r) % 2 ^ 32 * 2 ^ base := by
  apply Nat.eq_of_testBit_eq
  intro p
  rw [Nat.mul_comm h, Nat.mul_assoc, ← Nat.pow_add, Nat.testBit_or, Nat.testBit_mod_two_pow, Nat.testBit_mul_two_pow,
    Nat.testBit_mul_two_pow, Nat.testBit_mul_two_pow, Nat.testBit_mod_two_pow, Nat.testBit_mod_two_pow,
    Nat.testBit_two_pow_mul_add _ hr]
  by_cases hbase : base ≤ p
  · obtain ⟨q, rfl⟩ := Nat.exists_eq_add_of_le hbase
    rw [Nat.add_sub_cancel_left, Nat.add_sub_add_left]
    by_cases hq : q < k
    · simp [hq, show q < 32 by omega]
    · have hhigh : r.testBit q = false :=
        Nat.testBit_lt_two_pow (hr.trans_le (Nat.pow_le_pow_right (by decide) (Nat.le_of_not_lt hq)))
      have htop : base + q < 32 + base ↔ q < 32 := by omega
      by_cases hq32 : q < 32
      · simp [hq, hhigh, htop, hq32, show k ≤ q by omega, show q - k < 32 by omega]
      · simp [hhigh, htop, hq32]
  · simp [hbase, show ¬ base + k ≤ p by omega]

/-- R149: what the four highest-index bytes hold after the levels below `i`, from low 32 bits of `h` in them. -/
theorem State.runLevels_value : ∀ (i : Nat) {s : State} {h : Nat}, 4 ≤ s.S.toNat → s.N.toNat ≤ 32 →
    s.value = h % 2 ^ 32 * 2 ^ (8 * (s.S.toNat - 4)) →
    (State.runLevels i s).value = appendRanks s i s.E s.D h % 2 ^ 32 * 2 ^ (8 * (s.S.toNat - 4))
  | 0, _, _, _, _, hvalue => hvalue
  | i + 1, s, h, hsize, hN, hvalue => by
    have hwidth : 8 * s.S.toNat = 32 + 8 * (s.S.toNat - 4) := by omega
    have hlevel := s.level_value i hsize
    rw [hvalue, hwidth, append_low_bits _ (popcount_le _) (s.levelRank_lt i hN)] at hlevel
    have hsame : SameAxes s (s.level i) := ⟨rfl, fun _ _ => rfl, fun _ _ => rfl⟩
    have hrest := State.runLevels_value i (s := s.level i) hsize hN hlevel
    rw [appendRanks_congr hsame] at hrest
    exact hrest

theorem Memory.readN_nil (addr : Nat) : ∀ n, Memory.readN [] addr n = 0
  | 0 => rfl
  | n + 1 => by rw [Memory.readN, Memory.readN_nil addr n, Memory.read_nil]; simp

/-- R149: the low 32 bits of the index in the four highest-index bytes, and nothing else. -/
theorem State.computeIndex_value (hconfig : ConfigOk s) :
    s.computeIndex.value = fullIndex s % 2 ^ 32 * 2 ^ (8 * (s.sizeNeeded - 4)) := by
  have hS : s.freshComputation.S.toNat = s.sizeNeeded := hconfig.sizeNeeded_toNat
  have hzero : s.freshComputation.value = 0 % 2 ^ 32 * 2 ^ (8 * (s.freshComputation.S.toNat - 4)) :=
    (Memory.readN_nil 0 _).trans (Nat.zero_mul _).symm
  have hsame : SameAxes s s.freshComputation := ⟨rfl, fun _ _ => rfl, fun _ _ => rfl⟩
  have hvalue := State.runLevels_value s.maxWidth (s.four_le_sizeNeeded.trans_eq hS.symm) hconfig.axes.2 hzero
  rw [appendRanks_congr hsame, hS] at hvalue
  exact hvalue

/-- R41: the bytes from `n` up are the value's upper part. -/
theorem Memory.readN_add (m : Memory) (addr n : Nat) : ∀ k,
    m.readN addr (n + k) = m.readN addr n + m.readN (addr + n) k * 2 ^ (8 * n)
  | 0 => by rw [Nat.add_zero, Memory.readN, Nat.zero_mul, Nat.add_zero]
  | k + 1 => by
    rw [← Nat.add_assoc, Memory.readN, Memory.readN_add m addr n k, Memory.readN, Nat.mul_add, Nat.pow_add, Nat.add_mul,
      Nat.add_assoc addr, Nat.add_assoc, Nat.mul_assoc, Nat.mul_comm (2 ^ (8 * n))]

/-- A value that is a multiple of `2^(8n)` is zero in its `n` lowest bytes. -/
theorem Memory.readN_eq_of_mul {m : Memory} {n k x : Nat} (h : m.readN 0 (n + k) = x * 2 ^ (8 * n)) :
    m.readN 0 n = 0 ∧ m.readN n k = x := by
  have hsplit := m.readN_add 0 n k
  rw [h, Nat.zero_add] at hsplit
  have hlow : m.readN 0 n = 0 := by
    have hmod := congrArg (· % 2 ^ (8 * n)) hsplit
    simpa [Nat.add_mul_mod_self_right, Nat.mod_eq_of_lt (m.readN_lt 0 n)] using hmod.symm
  rw [hlow, Nat.zero_add] at hsplit
  exact ⟨hlow, (Nat.eq_of_mul_eq_mul_right (Nat.two_pow_pos _) hsplit).symm⟩

end Sys2Proof.Machine

namespace Sys2Proof.Safety

open Sys2Proof.Machine

/-- R149: the index has as many bits as the widths together. -/
theorem fullIndex_lt {s : State} (hconfig : ConfigOk s) : fullIndex s < 2 ^ s.totalWidth := by
  have hlt := appendRanks_lt hconfig.axes.2 s.maxWidth 0 0 0 0 (by decide)
  rwa [Nat.zero_add, s.bitsBelowLevel_maxWidth] at hlt

/-- Settles O51: the two computations start from the same operands, accumulators and buffer, which is all a level reads,
and the first level writes every latch. -/
theorem computationDependsOnItsOperandsOnly : Obligations.ComputationDependsOnItsOperandsOnly := by
  intro s s' h h' hN hoperands
  have haxes : SameAxes s s' := ⟨hN, fun j hj => (hoperands j hj).1, fun j hj => (hoperands j hj).2⟩
  have hfresh := haxes.freshComputation
  obtain ⟨m, hm⟩ := Nat.exists_eq_add_of_le' h.config.one_le_maxWidth
  have hrun := SameComputing.runLevels s.maxWidth hfresh
  have hlatches := SameComputing.runLevels_latches m hfresh
  rw [← hm] at hlatches
  obtain ⟨_, _, hBV, hN, hW, hP, hPLEN, _⟩ := s.computeIndex_frame
  obtain ⟨_, _, hBV', _⟩ := s'.computeIndex_frame
  refine ⟨_, _, exec_hxRun_of_canStart h, exec_hxRun_of_canStart h', ?_⟩
  rw [s'.computeIndex_eq, haxes.maxWidth] at hBV' ⊢
  exact ⟨hrun.S, hBV'.trans hBV.symm, fun k => congrArg (Memory.read · k) hrun.B, hrun.E, hrun.D, rfl, rfl, hlatches.MU,
    hlatches.L, hlatches.T, hlatches.WV, hlatches.R, hN, hW, hP, hPLEN⟩

/-- Settles O50: the index is below `2^M`, so a four-byte buffer holds all of it, and a longer one its low 32 bits in the
four highest-index bytes. -/
theorem bufferHoldsTheIndexAfterRun : Obligations.BufferHoldsTheIndexAfterRun := by
  intro s h
  have hlt := fullIndex_lt h.config
  have hvalue := State.computeIndex_value h.config
  obtain ⟨_, hsize, _⟩ := s.computeIndex_frame
  have hS : s.computeIndex.S.toNat = s.sizeNeeded := by rw [hsize, h.config.sizeNeeded_toNat]
  have hneed : s.sizeNeeded = max 4 ((s.totalWidth + 7) / 8) := rfl
  refine ⟨hlt, _, exec_hxRun_of_canStart h, hS, fun hnarrow => ?_, fun hwide => ?_⟩
  · have hfour : s.sizeNeeded = 4 := by omega
    have hfits : fullIndex s < 2 ^ 32 := hlt.trans_le (Nat.pow_le_pow_right (by decide) hnarrow)
    rw [hfour, Nat.mod_eq_of_lt hfits] at hvalue
    exact ⟨hS.trans hfour, hvalue.trans (Nat.mul_one _)⟩
  · have hlong : 4 < s.sizeNeeded := by omega
    have hsplit : s.sizeNeeded = s.sizeNeeded - 4 + 4 := by omega
    rw [State.value, hS, hsplit, Nat.add_sub_cancel] at hvalue
    obtain ⟨hlow, hhigh⟩ := Memory.readN_eq_of_mul hvalue
    rw [State.answer_S, hS]
    exact ⟨hlong, hhigh, fun k hk => Memory.read_eq_zero_of_readN hlow hk⟩

end Sys2Proof.Safety
end

section
/-! SUPPORT. The register read port (R160, R161): what `cs.rd` answers by what the map holds at the address, and what the
map holds at each address. -/

namespace Sys2Proof.Machine

open Sys2Proof.Safety

variable {s : State} {address : Nat}

/-! ## What `cs.rd` answers (R160) -/

/-- R160: a mapped register is the response, in every state. -/
theorem exec_csRd_of_some {data : Data} (h : s.readRegister address = some data) :
    exec (.csRd address) s = .next (answered s data) := by
  have hpass : firstFailure (checksOf (.csRd address) s) = none := by simp [checksOf, rangeIf, h]
  rw [exec_readOnly_of_pass rfl hpass, readData, h, Option.getD_some]

/-- R160, R174: an address without a register is out of range. -/
theorem exec_csRd_of_none (h : s.readRegister address = none) :
    exec (.csRd address) s = .next (refused s .range) :=
  exec_of_fail (by simp [checksOf, rangeIf, h])

/-- R66, R161: a register narrower than the data field has zeros above it. -/
theorem exec_csRd_of_zext64 {pad w : Nat} {v : BitVec w} (hw : pad + w = 64)
    (h : s.readRegister address = some (zext64 v)) :
    exec (.csRd address) s = .next (answered s ((0#pad ++ v).cast hw)) := by
  obtain rfl : pad = 64 - w := by omega
  rw [exec_csRd_of_some h, zext64, BitVec.setWidth_eq_append (by omega)]

/-! ## The map (R161) -/

/-- R161: bit 1 of STATUS is ACT and bit 0 is BV. -/
theorem State.statusWord_eq (s : State) :
    s.statusWord = BitVec.ofNat 64 ((if s.ACT then 2 else 0) + (if s.BV then 1 else 0)) := by
  rw [State.statusWord]
  cases s.ACT <;> cases s.BV <;> rfl

theorem State.readRegister_width {j : Nat} (hj : j < 32) : s.readRegister (0x100 + j) = some (zext64 s.W[j]) := by
  rw [State.readRegister, if_pos (by omega), Nat.add_sub_cancel_left, State.width, Vector.getElem?_eq_getElem hj,
    Option.getD_some]

theorem State.readRegister_point {j : Nat} (hj : j < 32) : s.readRegister (0x200 + j) = some (zext64 s.P[j]) := by
  rw [State.readRegister, if_neg (by omega), if_pos (by omega), Nat.add_sub_cancel_left, State.point,
    Vector.getElem?_eq_getElem hj, Option.getD_some]

theorem State.readRegister_plen {j : Nat} (hj : j < 32) : s.readRegister (0x300 + j) = some (zext64 s.PLEN[j]) := by
  rw [State.readRegister, if_neg (by omega), if_neg (by omega), if_pos (by omega), Nat.add_sub_cancel_left, State.plen,
    Vector.getElem?_eq_getElem hj, Option.getD_some]

/-- R161: the scalar registers end at 0x00A. -/
theorem State.readScalar_eq_none (h : 0x00A < address) : s.readScalar address = none := by
  unfold State.readScalar
  split
  case h_12 => rfl
  all_goals exact absurd h (by decide)

/-- R161: outside the map there is no register. -/
theorem State.readRegister_eq_none (h : ¬ mapped address) : s.readRegister address = none := by
  obtain ⟨hscalar, hwidth, hpoint, hplen⟩ : ¬ address ≤ 0x00A ∧ ¬ (0x100 ≤ address ∧ address ≤ 0x11F) ∧
      ¬ (0x200 ≤ address ∧ address ≤ 0x21F) ∧ ¬ (0x300 ≤ address ∧ address ≤ 0x31F) := by
    simpa only [not_or] using h
  rw [State.readRegister, if_neg hwidth, if_neg hpoint, if_neg hplen,
    State.readScalar_eq_none (Nat.lt_of_not_le hscalar)]

end Sys2Proof.Machine

namespace Sys2Proof.Safety

open Sys2Proof.Machine

/-- Settles O53: STATUS, the ten scalar registers above it, the three register files, and the rest of the addresses. -/
theorem registerReadMap : Obligations.RegisterReadMap := by
  intro s
  refine ⟨?status, exec_csRd_of_zext64 rfl rfl, exec_csRd_of_zext64 rfl rfl, exec_csRd_of_zext64 rfl rfl,
    exec_csRd_of_zext64 rfl rfl, exec_csRd_of_zext64 rfl rfl, exec_csRd_of_zext64 rfl rfl, exec_csRd_of_zext64 rfl rfl,
    exec_csRd_of_zext64 rfl rfl, exec_csRd_of_zext64 rfl rfl, exec_csRd_of_zext64 rfl rfl,
    fun j hj => exec_csRd_of_zext64 rfl (State.readRegister_width hj),
    fun j hj => exec_csRd_of_zext64 rfl (State.readRegister_point hj),
    fun j hj => exec_csRd_of_zext64 rfl (State.readRegister_plen hj),
    fun address h => exec_csRd_of_none (State.readRegister_eq_none h)⟩
  case status =>
    rw [← s.statusWord_eq]
    exact exec_csRd_of_some rfl

end Sys2Proof.Safety
end

section
/-! SUPPORT. The status of a command (R170 to R178). A command's checks are the conditions of R178's list that can hold
for it (`firstFailure_checksOf`), so it is refused with the status of that list, or that status is OK and it takes effect
(`exec_statusOf_cases`). From that when a buffer cannot be sized (R172); and what a refusal leaves (R179), and what the
interlock protects (R175). -/

namespace Sys2Proof.Machine

open Sys2Proof.Safety

variable {i : Instr} {s : State}

/-! ## The conditions of R171 and R174 as the checks make them -/

/-- R161: every mapped address has a register. -/
theorem State.isSome_readRegister (s : State) {address : Nat} (h : mapped address) :
    (s.readRegister address).isSome = true := by
  rw [State.readRegister]
  split_ifs with hwidth hpoint hplen
  · rfl
  · rfl
  · rfl
  · have hscalar : address ≤ 0x00A := by
      rcases h with hlow | hw | hp | hl
      · exact hlow
      · exact absurd hw hwidth
      · exact absurd hp hpoint
      · exact absurd hl hplen
    interval_cases address <;> rfl

theorem State.isNone_readRegister (s : State) (address : Nat) :
    (s.readRegister address).isNone = decide (¬ mapped address) := by
  by_cases h : mapped address
  · rw [decide_eq_false (not_not.mpr h), Option.isNone_eq_false_iff, s.isSome_readRegister h]
  · rw [decide_eq_true h, State.readRegister_eq_none h, Option.isNone_none]

/-- R171: the operands of a command that validates are the configuration (R135). -/
theorem badOperand_iff_of_validating (hi : i = .hxInit ∨ i = .hxRun) : badOperand s i = true ↔ ¬ ConfigOk s := by
  have hcond : badOperand s i = badOperand s .hxInit := by rcases hi with rfl | rfl <;> rfl
  rw [hcond, ← Bool.not_eq_false, not_iff_not]
  simp only [badOperand, decide_eq_false_iff_not, not_or, not_exists, not_and, not_lt]
  constructor
  · rintro ⟨hpos, hmax, hwidths, hlengths⟩
    exact ⟨⟨hpos, hmax⟩, hwidths, hlengths⟩
  · rintro ⟨⟨hpos, hmax⟩, hwidths, hlengths⟩
    exact ⟨hpos, hmax, hwidths, hlengths⟩

/-! ## The checks as R178 lists them -/

/-- R178: the conditions of R175, R176, R173, R171, R174 and R172, in the rule's order. -/
def ruleChecks (i : Instr) (s : State) : List (Bool × Status) :=
  [(interlocked i && s.ACT, .busy), (decide (i = .hxStep) && !s.ACT, .sequence), (needsBuffer i && !s.BV, .noBuffer),
    (badOperand s i, .invalidArgument), (outOfRange s i, .range), (noCapacity s i, .allocationFailure)]

theorem statusOf_eq_ruleChecks (i : Instr) (s : State) : statusOf s i = (firstFailure (ruleChecks i s)).getD .ok := by
  simp only [ruleChecks, firstFailure_cons, firstFailure_nil, apply_ite (Option.getD · Status.ok), Option.getD_some,
    Option.getD_none]
  rfl

section Validating

variable (hi : i = .hxInit ∨ i = .hxRun)
include hi

/-- R135: only the interlock, the configuration and the room can refuse a command that validates. -/
theorem firstFailure_ruleChecks_validating :
    firstFailure (ruleChecks i s) = if s.ACT then some .busy else if badOperand s i then some .invalidArgument
      else if s.cfg.bufBytes < s.sizeNeeded then some .allocationFailure else none := by
  rcases hi with rfl | rfl <;> simp [ruleChecks, interlocked, needsBuffer, outOfRange, noCapacity]

theorem firstFailure_checksOf_validating : firstFailure (checksOf i s) = firstFailure (ruleChecks i s) := by
  have hchecks : checksOf i s = s.busy :: s.validate := by rcases hi with rfl | rfl <;> rfl
  have hconfig := badOperand_iff_of_validating (s := s) hi
  rw [firstFailure_ruleChecks_validating hi, hchecks, State.busy, firstFailure_cons]
  refine if_congr Iff.rfl rfl ?_
  split_ifs with hbad hroom
  · exact validate_of_invalid (hconfig.mp hbad)
  · exact validate_of_noRoom (not_not.mp (mt hconfig.mpr hbad)) hroom
  · exact s.validate_passes_iff.mpr ⟨not_not.mp (mt hconfig.mpr hbad), Nat.le_of_not_lt hroom⟩

end Validating

/-- R178: the checks of a command are the conditions of the rule's list that can hold for it, in the rule's order. -/
theorem firstFailure_checksOf (i : Instr) (s : State) :
    firstFailure (checksOf i s) = firstFailure (ruleChecks i s) := by
  cases i with
  | hxInit => exact firstFailure_checksOf_validating (.inl rfl)
  | hxRun => exact firstFailure_checksOf_validating (.inr rfl)
  | puXmask n level d =>
    rw [firstFailure_puXmask]
    simp [ruleChecks, interlocked, needsBuffer, badOperand, outOfRange, noCapacity]
  | csRd address =>
    rw [checksOf, s.isNone_readRegister]
    simp [ruleChecks, interlocked, needsBuffer, badOperand, outOfRange, noCapacity, rangeIf]
  | _ =>
    simp [checksOf, ruleChecks, interlocked, needsBuffer, badOperand, outOfRange, noCapacity, State.busy,
      State.noBuffer, State.tooBig, State.noComputation, invalidIf, rangeIf, createSize, bufMin]

theorem statusOf_eq (i : Instr) (s : State) : statusOf s i = (firstFailure (checksOf i s)).getD .ok := by
  rw [firstFailure_checksOf, statusOf_eq_ruleChecks]

/-! ## What a command answers, by its status -/

/-- R178, R179: a command is refused with its status, or that status is OK and it takes effect. -/
theorem exec_statusOf_cases (i : Instr) (s : State) :
    exec i s = .next (refused s (statusOf s i)) ∨
      (statusOf s i = .ok ∧ ∃ data, exec i s = .next ((effectOf i s).answer .ok data)) := by
  rw [statusOf_eq]
  cases hcheck : firstFailure (checksOf i s) with
  | some status => exact .inl (exec_of_fail hcheck)
  | none => exact .inr ⟨rfl, exec_of_pass hcheck⟩

/-- R66, R178: the one response a command gives has its status. -/
theorem exec_response (i : Instr) (s : State) :
    ∃ t r, exec i s = .next t ∧ t.rsps = s.rsps ++ [r] ∧ r.status = statusOf s i := by
  rcases exec_statusOf_cases i s with hexec | ⟨hok, data, hexec⟩
  · exact ⟨_, ⟨statusOf s i, 0⟩, hexec, rfl, rfl⟩
  · refine ⟨_, ⟨.ok, data⟩, hexec, ?_, hok.symm⟩
    rw [State.answer_rsps, effectOf_rsps]

/-- R178: a command is refused with a status exactly when that is its status. -/
theorem exec_eq_refused_iff {status : Status} (hne : status ≠ .ok) :
    exec i s = .next (refused s status) ↔ statusOf s i = status := by
  constructor
  · intro hrefused
    obtain ⟨t, r, hexec, hrsps, hstatus⟩ := exec_response i s
    obtain rfl : t = refused s status := Host.Outcome.next.inj (hexec.symm.trans hrefused)
    have hr : r = ⟨status, 0⟩ := (List.singleton_inj.mp (List.append_cancel_left hrsps)).symm
    rw [← hstatus, hr]
  · rintro rfl
    exact (exec_statusOf_cases i s).resolve_right fun hpass => hne hpass.1

/-! ## ALLOCATION_FAILURE (R172) -/

theorem statusOf_bbCreate_eq_allocationFailure_iff (size : Nat) :
    statusOf s (.bbCreate size) = .allocationFailure ↔ s.ACT = false ∧ s.cfg.bufBytes < max size 4 := by
  have hstatus : statusOf s (.bbCreate size) =
      if s.ACT then .busy else if s.cfg.bufBytes < max size 4 then .allocationFailure else .ok := by
    simp [statusOf, interlocked, needsBuffer, badOperand, outOfRange, noCapacity]
  rw [hstatus]
  split_ifs with hact hroom
  · simp [hact]
  · simp only [hact, hroom, and_true]
  · simp only [hroom, and_false]

/-- R135, R172: a command that validates fails for want of room exactly on an idle block with a valid configuration. -/
theorem statusOf_validating_eq_allocationFailure_iff (hi : i = .hxInit ∨ i = .hxRun) :
    statusOf s i = .allocationFailure ↔ s.ACT = false ∧ ConfigOk s ∧ s.cfg.bufBytes < s.sizeNeeded := by
  have hconfig := badOperand_iff_of_validating (s := s) hi
  rw [statusOf_eq_ruleChecks, firstFailure_ruleChecks_validating hi]
  split_ifs with hact hbad hroom
  · simp [hact]
  · simp [hconfig.mp hbad]
  · simp [hact, not_not.mp (mt hconfig.mpr hbad), hroom]
  · simp [hroom]

/-- Three axes of 32 bits, which need 12 bytes, in an instance with 8. -/
def threeWideAxes : State :=
  { State.resetOf ⟨8⟩ with N := 3, W := Vector.replicate 32 32, PLEN := Vector.replicate 32 4 }

theorem threeWideAxes_configOk : ConfigOk threeWideAxes := ⟨by decide, by decide, by decide⟩

/-! ## The interlock (R175) -/

/-- R27, R175: while a computation is in progress a command only responds, but for hx.step and hx.abort. -/
theorem exec_of_running (i : Instr) (hact : s.ACT = true) :
    (∃ status data, exec i s = .next (s.answer status data)) ∨
      (i = .hxStep ∧ exec i s = .next (s.advance.answer .ok s.doneFlag)) ∨
      (i = .hxAbort ∧ exec i s = .next (s.abandon.answer .ok 0)) := by
  cases i with
  | bbCreate | bbClear | bbShl | bbOrw | bbXorw | bbSetbit | bbRelease | hxSetn | hxSetw | hxLdp | hxInit | hxRun =>
    exact .inl ⟨_, _, exec_interlocked_of_running rfl hact⟩
  | hxStep => exact .inr (.inl ⟨rfl, exec_hxStep_of_running hact⟩)
  | hxAbort => exact .inr (.inr ⟨rfl, rfl⟩)
  | _ => exact .inl ⟨_, _, exec_readOnly rfl s⟩

end Sys2Proof.Machine

namespace Sys2Proof.Safety

open Sys2Proof.Machine

/-- Settles O8: with nothing offered there is no event to take. -/
theorem idleStepKeepsAllState : Obligations.IdleStepKeepsAllState := by
  intro s hnone
  rw [step, State.nextInput_nil hnone, takeEvent]

/-- Settles O12: the one response of an illegal packet is ILLEGAL, that of a command has the status of R178's list. -/
theorem statusIsTheFirstFailingCheck : Obligations.StatusIsTheFirstFailingCheck :=
  ⟨fun s p rest hin hillegal => ⟨_, (illegalPacketsAreAnsweredIllegal s p rest hin).1 hillegal, rfl⟩,
    fun s i => exec_response i s⟩

/-- Settles O13: a refusal only responds, and an effect's response is OK. -/
theorem refusalChangesNothing : Obligations.RefusalChangesNothing := by
  intro i s t r hexec hrsps hne
  rcases exec_next hexec with ⟨status, rfl⟩ | ⟨data, _, rfl⟩
  · have hr : r = ⟨status, 0⟩ := (List.singleton_inj.mp (List.append_cancel_left hrsps)).symm
    exact ⟨SameArch.answer s status 0, by rw [hr], rfl⟩
  · rw [State.answer_rsps, effectOf_rsps] at hrsps
    have hr : r = ⟨.ok, data⟩ := (List.singleton_inj.mp (List.append_cancel_left hrsps)).symm
    exact absurd (by rw [hr]) hne

/-- Settles O14: the refusal is the status, which is ALLOCATION_FAILURE where the room is the only condition that holds;
a valid configuration needs at most 128 bytes, and the one of three wide axes more than its instance has. -/
theorem allocationFailsExactlyBeyondCapacity : Obligations.AllocationFailsExactlyBeyondCapacity := by
  have hfails : ∀ {i : Instr} {s : State}, i = .hxInit ∨ i = .hxRun →
      (exec i s = .next (refused s .allocationFailure) ↔
        s.ACT = false ∧ ConfigOk s ∧ s.cfg.bufBytes < s.sizeNeeded) := fun hi =>
    (exec_eq_refused_iff (by decide)).trans (statusOf_validating_eq_allocationFailure_iff hi)
  refine ⟨fun s size hidle => ?_, fun s hidle hconfig => ?_, fun s hcap => ?_, threeWideAxes, by decide, ?_⟩
  · rw [exec_eq_refused_iff (by decide), statusOf_bbCreate_eq_allocationFailure_iff, and_iff_right hidle]
  · rw [hfails (.inl rfl), hfails (.inr rfl), and_iff_right hidle, and_iff_right hconfig]
    exact ⟨Iff.rfl, Iff.rfl⟩
  · have hnot : ¬ (s.ACT = false ∧ ConfigOk s ∧ s.cfg.bufBytes < s.sizeNeeded) := by
      rintro ⟨_, hconfig, hroom⟩
      exact absurd (hcap.trans_lt hroom) (Nat.not_lt.mpr hconfig.sizeNeeded_le)
    exact ⟨mt (hfails (.inl rfl)).mp hnot, mt (hfails (.inr rfl)).mp hnot⟩
  · exact (hfails (.inr rfl)).mpr ⟨rfl, threeWideAxes_configOk, by decide⟩

/-- Settles O15: while ACT is set an interlocked command is refused, and of the others only hx.step and hx.abort do more
than respond. -/
theorem interlockProtectsTheComputation : Obligations.InterlockProtectsTheComputation := by
  intro i s hact
  refine ⟨fun hi => exec_interlocked_of_running hi hact, ?_⟩
  rcases exec_of_running i hact with ⟨status, data, hexec⟩ | ⟨rfl, hexec⟩ | ⟨rfl, hexec⟩
  · exact ⟨_, hexec, rfl, rfl, rfl, rfl, rfl, rfl, fun _ => ⟨rfl, rfl, rfl, rfl, rfl, rfl, rfl, rfl, rfl⟩,
      fun _ _ => hact⟩
  · obtain ⟨_, hS, hBV, hN, hW, hP, hPLEN⟩ := s.advance_frame
    exact ⟨_, hexec, hN, hW, hP, hPLEN, hS, hBV, (absurd rfl ·), (absurd rfl ·)⟩
  · exact ⟨_, hexec, rfl, rfl, rfl, rfl, rfl, rfl, fun _ => ⟨rfl, rfl, rfl, rfl, rfl, rfl, rfl, rfl, rfl⟩,
      fun _ => (absurd rfl ·)⟩

end Sys2Proof.Safety
end

section
/-! SUPPORT. A reset between two commands (R190, R191): the step that takes it, and the state it leaves. -/

namespace Sys2Proof.Machine

theorem step_of_rst {s : State} {rest : List HostEvent} (hin : s.inputs = .rst :: rest) :
    step s = .next s.takeReset := by
  rw [step, State.nextInput_cons hin, takeEvent]

end Sys2Proof.Machine

namespace Sys2Proof.Safety

open Sys2Proof.Machine

/-- R28's list names neither the parameter nor the channel. -/
theorem AllZero.setParameterAndChannel {t : State} (h : AllZero t) (c : Config) (inputs : List HostEvent)
    (rsps : List Response) : AllZero { t with cfg := c, inputs := inputs, rsps := rsps } :=
  { h with }

/-- R190: a reset leaves the state after reset but for the parameter and the channel, whatever the state was. -/
theorem AllZero.takeReset (s : State) : AllZero s.takeReset :=
  resetStateIsAllZero.setParameterAndChannel s.cfg s.inputs.tail s.rsps

/-- Settles O9: the reset is taken off the channel and leaves every piece of state zero. -/
theorem resetEventZeroesTheState : Obligations.ResetEventZeroesTheState := by
  intro s rest hin
  have hrest : s.takeReset.inputs = rest := by rw [State.takeReset_inputs, hin, List.tail_cons]
  exact ⟨_, step_of_rst hin, AllZero.takeReset s, s.takeReset_cfg, hrest, s.takeReset_rsps⟩

end Sys2Proof.Safety
end
